-- ==== Sys2Proof/Word.lean ====
section
/-! DEFINITION. The kinds of value of the TN-05 core (spec/00_scope.md R11): bits, raw samples, DAC codes,
command words, physical values and line identifiers. -/

namespace Sys2Proof

/-- R11 `Bit`; the collaborator's interface types it `bool` (R30, R32): `true` is 1, high. -/
abbrev Bit := Bool

/-- The level 0 of a line (R30). -/
abbrev low : Bit := false

/-- The level 1 of a line (R30). -/
abbrev high : Bit := true

/-- R11 `Raw10`, R14 RawSample: an integer in 0..1023. -/
abbrev Raw10 := Fin 1024

/-- R11 `Code12`: the 12-bit DAC code. -/
abbrev Code12 := BitVec 12

/-- R51: a command word, 16 bits, bit 15 the most significant. -/
abbrev CmdWord := BitVec 16

/-- R10, R11 `PhysNum`: an exact rational number. -/
abbrev PhysNum := Rat

/-- R21, R29: the collaborator's abstract line identifier (DESIGN CHOICE, log entry 2: numbered by naturals). -/
abbrev LineId := Nat

end Sys2Proof
end

