-- ==== Sys2Proof/Config.lean ====
section
/-! DEFINITION. The configuration of one block instance (spec/10_state.md R15, R19 to R21; spec/00_scope.md R7 to R9),
fixed at construction, and the free values of the collaborator's draws (spec/20_memory.md R31, R32). -/

namespace Sys2Proof

/-- R7 Table P1: the fixed constants, each a named field with the value the source gives (decision D24), which every
operation reads by its name. The spec types no field. DESIGN CHOICE (log entry 7): the two raw offsets are integers (R11),
so that they may be negative, as R19 allows; the other fields are natural numbers: R19 and R69 keep the codes, spans,
thresholds and the divisor from being negative, and a count, a width, a sample bound or a duration is no negative number.
Which values of `codeBits`, `rawMax`, `numChannels`, `numDips` and `frameSlots` are accepted is `shapesWf`'s (log
entry 7). -/
structure Constants where
  codeMin : Nat := 205
  codeSpan : Nat := 3686
  codeMax : Nat := 3891
  codeBits : Nat := 12
  rawMax : Nat := 1023
  jackThreshold : Nat := 990
  masterThreshold : Nat := 1010
  stdOffset : Int := 51
  stdSpan : Nat := 922
  masterOffset : Int := 102
  masterSpan : Nat := 819
  potDivisor : Nat := 1023
  numChannels : Nat := 6
  numDips : Nat := 2
  holdUs : Nat := 5
  frameSlots : Nat := 27
  deriving DecidableEq, Repr

/-- R7: the constants with the values of Table P1. -/
def Constants.tableP1 : Constants := {}

/-- R21: the collaborator line of each logical signal. -/
structure PinMap where
  clock : LineId
  data : LineId
  ain : Vector LineId 6
  din : Vector LineId 6
  pot : LineId
  masterAnalog : LineId
  dip : Vector LineId 2
  sw : LineId
  masterSw : LineId
  deriving DecidableEq, Repr

/-- R21: the input lines of the PinMap. -/
def PinMap.inputs (p : PinMap) : List LineId :=
  p.ain.toList ++ p.din.toList ++ [p.pot, p.masterAnalog] ++ p.dip.toList ++ [p.sw, p.masterSw]

/-- R15 `Config`: the Range (R20), the PinMap (R21), the constants (R7) and ADC_RESAMPLE (R9). -/
structure Config where
  minVal : PhysNum
  maxVal : PhysNum
  pins : PinMap
  consts : Constants := Constants.tableP1
  adcResample : Bool := false
  deriving DecidableEq, Repr

/-- DESIGN CHOICE (log entry 2): the source gives no line assignment (D23); twenty different identifiers. -/
def PinMap.standard : PinMap :=
  { clock := 0, data := 1, ain := #v[2, 3, 4, 5, 6, 7], din := #v[8, 9, 10, 11, 12, 13], pot := 14, masterAnalog := 15,
    dip := #v[16, 17], sw := 18, masterSw := 19 }

/-- DESIGN CHOICE (log entry 1): the configuration of `State.reset`: Range [0, 10], the constants of Table P1 and
ADC_RESAMPLE false (the defaults of spec/95_test_vectors.md). No statement rests on it. -/
def Config.standard : Config := { minVal := 0, maxVal := 10, pins := PinMap.standard }

/-- R31: the FREE VALUE that answers the `n`-th draw when it is an analog sample and the state lists no answer for it:
"a draw ... under no law" (log entry 4). No body, so nothing can be proved of it but its type. -/
opaque Config.freeRaw : Nat → Raw10

/-- R32: the FREE VALUE that answers the `n`-th draw when it is a digital read and the state lists no answer for it
(log entry 4). -/
opaque Config.freeBit : Nat → Bit

end Sys2Proof
end

