-- ==== Sys2Proof/Syntax.lean ====
section
/-! DEFINITION. The commands of the TN-05 core: one constructor per row of spec/opcode_table.json
(spec/30_encoding.md R52, Table E1), with the operands R53 decodes. -/

namespace Sys2Proof

/-- R52, R57: a command. An index operand (`ch`, `idx`) is the integer `sext_12(opd)` of R53, not yet clamped;
VALUE_IN of WRITE_OUTPUT is no part of the word and stands in the state (R51, R54). -/
inductive Instr where
  | transmit (code : Code12)
  | writeOutput
  | writeDigitalOutput (b : Bit)
  | isConnected (ch : Int)
  | readAnalog (ch : Int)
  | readDigital (ch : Int)
  | readPot
  | isMasterConnected
  | readMaster
  | readDip (idx : Int)
  | readSwitch
  | readMasterSwitch
  | snapshot
  deriving DecidableEq, Repr

end Sys2Proof
end

