-- ==== Sys2Proof/WellFormed.lean ====
section
/-! DEFINITION. Which commands a word can carry (spec/30_encoding.md R53): an index operand lies in -2048..2047. -/

namespace Sys2Proof

/-- R53 IDX12: the integers a 12-bit two's complement field holds. -/
def idx12Wf (n : Int) : Bool := decide (-2048 ≤ n) && decide (n ≤ 2047)

/-- R53: the operands a command word can present. CODE12 and BIT operands are in range by their types. -/
def Instr.wf : Instr → Bool
  | .transmit _ => true
  | .writeOutput => true
  | .writeDigitalOutput _ => true
  | .isConnected ch => idx12Wf ch
  | .readAnalog ch => idx12Wf ch
  | .readDigital ch => idx12Wf ch
  | .readPot => true
  | .isMasterConnected => true
  | .readMaster => true
  | .readDip idx => idx12Wf idx
  | .readSwitch => true
  | .readMasterSwitch => true
  | .snapshot => true

end Sys2Proof
end

