-- ==== Sys2Proof/Decode.lean ====
section
/-! DEFINITION. The command word (spec/30_encoding.md section 2): decoding, total over all 65,536 words, the encoder,
and the opcode map of Table E1. -/

namespace Sys2Proof

/-- R55, R56: why a word selects no command. -/
inductive IllegalWord where
  /-- R55: opcode 0x0, 0xE or 0xF. -/
  | reservedOpcode
  /-- R56: a must-be-zero operand bit is set. -/
  | operandBitsNotZero
  deriving DecidableEq, Repr

/-- R57: the result of decoding, `Command ⊎ Illegal`. -/
inductive Decoded where
  | command (i : Instr)
  | illegal (why : IllegalWord)
  deriving DecidableEq, Repr

/-- R51: `op = w[15:12]`. -/
def opField (w : CmdWord) : BitVec 4 := w.extractLsb' 12 4

/-- R51: `opd = w[11:0]`. -/
def opdField (w : CmdWord) : BitVec 12 := w.extractLsb' 0 12

/-- R11 `sext_12`: a 12-bit field read as two's complement. -/
def sext12 (v : BitVec 12) : Int := v.toInt

/-- R53 form NONE: the operand field must be 0. -/
def decodeNone (opd : BitVec 12) (i : Instr) : Decoded :=
  if opd = 0 then .command i else .illegal .operandBitsNotZero

/-- R53 form BIT: the operand is `opd[0]`, and `opd[11:1]` must be 0. -/
def decodeBit (opd : BitVec 12) (f : Bit → Instr) : Decoded :=
  if opd.extractLsb' 1 11 = 0 then .command (f (opd.getLsbD 0)) else .illegal .operandBitsNotZero

/-- R53 form IDX12: `idx = sext_12(opd)`, every value legal. -/
def decodeIdx (opd : BitVec 12) (f : Int → Instr) : Decoded := .command (f (sext12 opd))

/-- R53 form CODE12: `code = zext(opd)`, every value legal. -/
def decodeCode12 (opd : BitVec 12) (f : Code12 → Instr) : Decoded := .command (f opd)

/-- R57: decoding, row by row of Table E1 (R52). -/
def decode (w : CmdWord) : Decoded :=
  match (opField w).toNat with
  | 0x1 => decodeCode12 (opdField w) .transmit
  | 0x2 => decodeNone (opdField w) .writeOutput
  | 0x3 => decodeBit (opdField w) .writeDigitalOutput
  | 0x4 => decodeIdx (opdField w) .isConnected
  | 0x5 => decodeIdx (opdField w) .readAnalog
  | 0x6 => decodeIdx (opdField w) .readDigital
  | 0x7 => decodeNone (opdField w) .readPot
  | 0x8 => decodeNone (opdField w) .isMasterConnected
  | 0x9 => decodeNone (opdField w) .readMaster
  | 0xA => decodeIdx (opdField w) .readDip
  | 0xB => decodeNone (opdField w) .readSwitch
  | 0xC => decodeNone (opdField w) .readMasterSwitch
  | 0xD => decodeNone (opdField w) .snapshot
  | _ => .illegal .reservedOpcode

/-- The instruction read from the `nbits` low bits of `w`, numbered as spec/opcode_table.json numbers them (R51, R59:
every word is 16 bits and arrives whole). A number too large for a word is refused. -/
def decodeTableWord (nbits w : Nat) : Option Instr :=
  let v := w % 2 ^ nbits
  if v < 2 ^ 16 then
    match decode (BitVec.ofNat 16 v) with
    | .command i => some i
    | .illegal _ => none
  else none

/-- R51, R53: an index operand as the 12-bit field that carries it. -/
def idx12Field (n : Int) : BitVec 12 := BitVec.ofInt 12 n

/-- R51: a word from its opcode and operand field. -/
def wordOf (op : BitVec 4) (opd : BitVec 12) : CmdWord := op ++ opd

/-- R52, R53: the word of a command (Table E1). -/
def encode : Instr → CmdWord
  | .transmit code => wordOf 0x1 code
  | .writeOutput => wordOf 0x2 0
  | .writeDigitalOutput b => wordOf 0x3 (if b then 1 else 0)
  | .isConnected ch => wordOf 0x4 (idx12Field ch)
  | .readAnalog ch => wordOf 0x5 (idx12Field ch)
  | .readDigital ch => wordOf 0x6 (idx12Field ch)
  | .readPot => wordOf 0x7 0
  | .isMasterConnected => wordOf 0x8 0
  | .readMaster => wordOf 0x9 0
  | .readDip idx => wordOf 0xA (idx12Field idx)
  | .readSwitch => wordOf 0xB 0
  | .readMasterSwitch => wordOf 0xC 0
  | .snapshot => wordOf 0xD 0

/-- R52, R60: the mnemonic of a command. -/
def Instr.mnemonic : Instr → String
  | .transmit _ => "TRANSMIT"
  | .writeOutput => "WRITE_OUTPUT"
  | .writeDigitalOutput _ => "WRITE_DIGITAL_OUTPUT"
  | .isConnected _ => "IS_CONNECTED"
  | .readAnalog _ => "READ_ANALOG"
  | .readDigital _ => "READ_DIGITAL"
  | .readPot => "READ_POT"
  | .isMasterConnected => "IS_MASTER_CONNECTED"
  | .readMaster => "READ_MASTER"
  | .readDip _ => "READ_DIP"
  | .readSwitch => "READ_SWITCH"
  | .readMasterSwitch => "READ_MASTER_SWITCH"
  | .snapshot => "SNAPSHOT"

/-- One row of Table E1 (R52). -/
structure OpcodeRow where
  mnemonic : String
  pattern : CmdWord
  mask : CmdWord
  deriving DecidableEq, Repr

/-- R52: a word selects a row when `(w & mask) = match`. -/
def OpcodeRow.selects (r : OpcodeRow) (w : CmdWord) : Bool := w &&& r.mask == r.pattern

/-- R52: Table E1, its rows that name a command, copied from the spec independently of `decode`. -/
def tableE1 : List OpcodeRow :=
  [⟨"TRANSMIT", 0x1000, 0xF000⟩,
   ⟨"WRITE_OUTPUT", 0x2000, 0xFFFF⟩,
   ⟨"WRITE_DIGITAL_OUTPUT", 0x3000, 0xFFFE⟩,
   ⟨"IS_CONNECTED", 0x4000, 0xF000⟩,
   ⟨"READ_ANALOG", 0x5000, 0xF000⟩,
   ⟨"READ_DIGITAL", 0x6000, 0xF000⟩,
   ⟨"READ_POT", 0x7000, 0xFFFF⟩,
   ⟨"IS_MASTER_CONNECTED", 0x8000, 0xFFFF⟩,
   ⟨"READ_MASTER", 0x9000, 0xFFFF⟩,
   ⟨"READ_DIP", 0xA000, 0xF000⟩,
   ⟨"READ_SWITCH", 0xB000, 0xFFFF⟩,
   ⟨"READ_MASTER_SWITCH", 0xC000, 0xFFFF⟩,
   ⟨"SNAPSHOT", 0xD000, 0xFFFF⟩]

end Sys2Proof
end

