-- ==== Sys2Proof/Machine/State.lean ====
section
/-! DEFINITION. The state of the TN-05 core as plain data (spec/10_state.md R15, R22 to R28), its events (spec/00_scope.md
R13), its answers (spec/30_encoding.md R58), the reasons a step can stop, and the state right after reset
(spec/70_reset_and_hazards.md R106). -/

namespace Sys2Proof.Machine

open Sys2Proof

/-- R13: an event of a trace: one call of a collaborator primitive (R30 to R33). -/
inductive Event where
  | set (line : LineId) (v : Bit)
  | delay (us : Nat)
  | sample (line : LineId) (r : Raw10)
  | read (line : LineId) (b : Bit)
  deriving DecidableEq, Repr

/-- R58: the status of an answer. -/
inductive Status where
  | ok
  | illegal
  deriving DecidableEq, Repr

/-- R91: what SNAPSHOT reports. -/
structure Snapshot where
  out : Option PhysNum
  ins : Vector (Option PhysNum) 6
  pot : Option PhysNum
  deriving DecidableEq, Repr

/-- R58: the result of a command. -/
inductive Result where
  | none
  | bool (b : Bool)
  | bit (b : Bit)
  | phys (q : PhysNum)
  | unit (q : PhysNum)
  | snap (s : Snapshot)
  deriving DecidableEq, Repr

/-- R58: what a command returns. -/
structure Answer where
  status : Status
  result : Result
  deriving DecidableEq, Repr

/-- R26: the sequencer: `Idle`, or `Busy(cmd, k)` with `k` events of `cmd` issued so far. -/
inductive Seq where
  | idle
  | busy (cmd : Instr) (k : Nat)
  deriving DecidableEq, Repr

/-- R108: the boot order: the configuration is fixed and the platform has set up the lines, but Reset has not run
(`awaitingReset`), or Reset has run and commands may be presented (`running`). -/
inductive Boot where
  | awaitingReset
  | running
  deriving DecidableEq, Repr

/-- R3, R90: a presented command: the word, and VALUE_IN beside it (R54). -/
structure Request where
  word : CmdWord
  valueIn : PhysNum
  deriving DecidableEq, Repr

/-- The machine. `cfg` is R15's Config; `clk` to `seq` are R15's State, and nothing else is block state. The other
fields are the model's own (R27: they are not block state): the boot position, the block's ports, and the
collaborator's answers as plain data (log entries 3 and 4). -/
structure State where
  /-- R15, R20, R21: the configuration, which no step changes. -/
  cfg : Config
  /-- R108: where the instance stands in the boot order. -/
  boot : Boot
  /-- R22: the level last driven on CLOCK. -/
  clk : Bit
  /-- R22: the level last driven on DATA. -/
  dat : Bit
  /-- R24: the clamped value of the last output write. -/
  outCache : Option PhysNum
  /-- R24: the value READ_ANALOG last returned, per channel. -/
  insCache : Vector (Option PhysNum) 6
  /-- R24: the value READ_POT last returned. -/
  potCache : Option PhysNum
  /-- R26: the sequencer. -/
  seq : Seq
  /-- R90, R113: the commands presented and not yet accepted, oldest first. -/
  inbox : List Request
  /-- R54: the VALUE_IN input as presented with the command being performed. -/
  valueIn : PhysNum
  /-- R58: the block's output: the answer of the last command. -/
  answer : Option Answer
  /-- R13: the events emitted since construction, oldest first. -/
  trace : List Event
  /-- R31: the collaborator's answers to the next analog samples, in order. -/
  analogIn : List Raw10
  /-- R32: the collaborator's answers to the next digital reads, in order. -/
  digitalIn : List Bit
  /-- The number of draws taken so far: it numbers the free values of `Config.freeRaw` and `Config.freeBit`. -/
  draws : Nat
  deriving DecidableEq, Repr

/-- Why the machine stops. -/
inductive Fault where
  /-- Raised by a step of an instance that awaits its reset while a command is presented to it. R108: such a command
  "has no defined behaviour. A model gives it no step" (93 I14: stuck). Safe. -/
  | commandBeforeReset
  /-- Raised by a step of a Busy state whose position is not the number of its command's events issued so far, which
  R26 rules out. No run reaches it. Safe (log entry 11). -/
  | sequencerOutOfStep
  deriving DecidableEq, Repr

/-- Why a command has no meaning. -/
inductive Refusal where
  /-- Raised by exec's arm of an instruction that has no meaning yet. Safe. -/
  | notModelled (mnemonic : String)
  /-- Raised by every command and every step of an instance whose configuration is not well-formed. R95: "every command
  on it is refused". Safe. -/
  | configRefused
  deriving DecidableEq, Repr

/-- R28, R106: the machine right after reset: lines high, caches unset, sequencer Idle, and the two events of Reset in
the trace. The configuration is `Config.standard` (log entry 1); the ports and the draws are empty (log entries 3, 4). -/
def State.reset : State :=
  { cfg := Config.standard
    boot := .running
    clk := high
    dat := high
    outCache := none
    insCache := Vector.replicate 6 none
    potCache := none
    seq := .idle
    inbox := []
    valueIn := 0
    answer := none
    trace := [.set Config.standard.pins.clock high, .set Config.standard.pins.data high]
    analogIn := []
    digitalIn := []
    draws := 0 }

end Sys2Proof.Machine
end

