-- ==== Sys2Proof/Machine/Operands.lean ====
section
/-! DEFINITION. Clamping and index operands (spec/00_scope.md R11, spec/42_input_conditioner.md R74), samples
(spec/20_memory.md R31), the slots of a code (spec/30_encoding.md R45 to R50), and which configurations an instance may be
constructed with (spec/10_state.md R19 to R21). -/

namespace Sys2Proof.Machine

open Sys2Proof

/-- R11: `clamp(x, lo, hi) = min(max(x, lo), hi)`. -/
def clamp {α : Type} [LinearOrder α] (x lo hi : α) : α := min (max x lo) hi

/-- R74: `clamp(n, 0, count - 1)`, an index operand as the number of one of `count` entries. -/
def clampIndex (n : Int) (count : Nat) : Nat := (clamp n 0 ((count : Int) - 1)).toNat

/-- R74: `clampCh(ch) = clamp(ch, 0, NUM_CHANNELS - 1)`, the generic channel an index operand names, as one of the six
entries of R15 and R21 (NUM_CHANNELS is at most their number, `shapesWf`). -/
def clampCh (k : Constants) (ch : Int) : Fin 6 := Fin.ofNat _ (clampIndex ch k.numChannels)

/-- R74: `clampDip(idx) = clamp(idx, 0, NUM_DIPS - 1)`, the DIP switch an index operand names (decision D14), as one of the
two entries of R21. -/
def clampDip (k : Constants) (idx : Int) : Fin 2 := Fin.ofNat _ (clampIndex idx k.numDips)

/-- R7, R31: the sample a draw stands for: an integer in 0..RAW_MAX. With RAW_MAX as in Table P1 it is the draw itself; with
a smaller one, the draw modulo RAW_MAX + 1 (DESIGN CHOICE, log entry 4). -/
def sampleOf (k : Constants) (draw : Raw10) : Raw10 :=
  ⟨draw.val % (k.rawMax + 1), Nat.lt_of_le_of_lt (Nat.mod_le _ _) draw.isLt⟩

/-- R45 Table F1, slots 1-8: the fixed header `1,1,0,0,0,0,0,0`. -/
def frameHeader : List Bit := [high, high, low, low, low, low, low, low]

/-- R46: the frame of a code, slot 1 first. -/
def frame (c : Code12) : List Bit :=
  frameHeader ++ [high] ++ [low, low, low, low] ++
    [c.getLsbD 11, c.getLsbD 10, c.getLsbD 9, c.getLsbD 8] ++ [high] ++
    [c.getLsbD 7, c.getLsbD 6, c.getLsbD 5, c.getLsbD 4, c.getLsbD 3, c.getLsbD 2, c.getLsbD 1, c.getLsbD 0] ++ [high]

/-- R7: the code the Protocol Encoder sends: the CODE_BITS low bits of a code. -/
def sentCode (k : Constants) (c : Code12) : Code12 := BitVec.ofNat _ (c.toNat % 2 ^ k.codeBits)

/-- R64, R7: the slots one Transmit sends: the FRAME_SLOTS first slots of the frame of the code sent. -/
def sentSlots (k : Constants) (c : Code12) : List Bit := (frame (sentCode k c)).take k.frameSlots

/-- R21: `clock != data`, and neither is an input line. -/
def pinsWf (p : PinMap) : Bool :=
  decide (p.clock ≠ p.data) && !p.inputs.contains p.clock && !p.inputs.contains p.data

/-- R19: the relations a model that lets a constant vary must keep. Of POT_DIVISOR it asks only that it is above 0; that a
POT_DIVISOR below RAW_MAX is accepted, although R20, R58 and R78 put READ_POT's result in [0, 1], is the model's (DESIGN
CHOICE, log entry 16). -/
def relationsWf (k : Constants) : Bool :=
  decide (k.codeMax = k.codeMin + k.codeSpan) && decide (0 < k.codeSpan) && decide (0 < k.stdSpan) &&
    decide (0 < k.masterSpan) && decide (0 < k.potDivisor) &&
    (decide (1 ≤ k.jackThreshold) && decide (k.jackThreshold ≤ 1024)) &&
    (decide (1 ≤ k.masterThreshold) && decide (k.masterThreshold ≤ 1024))

/-- R7: the values the constants may take beside R19's relations (log entry 7). CODE_BITS is the width of a Code12 (R11,
R65) and FRAME_SLOTS the length of the frame (R45, "exactly 27 bit slots"): DEDUCED. There are at most the six channels and
two DIP switches of R15 and R21, and at least one of each (R74's clamp needs `0 <= NUM_CHANNELS - 1`), and a sample is a
Raw10 (R31), so RAW_MAX is at most 1023: DEDUCED. Every code the mapper gives fits CODE_BITS (R69): DEDUCED. -/
def shapesWf (k : Constants) : Bool :=
  decide (k.codeBits = 12) && decide (k.codeMax < 2 ^ k.codeBits) && decide (k.frameSlots = (frame 0).length) &&
    (decide (1 ≤ k.numChannels) && decide (k.numChannels ≤ 6)) && (decide (1 ≤ k.numDips) && decide (k.numDips ≤ 2)) &&
    decide (k.rawMax < 1024)

/-- R19, R20: the configurations an instance may be constructed with; every other one is refused (R95). -/
def configWf (c : Config) : Bool :=
  decide (c.minVal < c.maxVal) && pinsWf c.pins && relationsWf c.consts && shapesWf c.consts

end Sys2Proof.Machine
end

