-- ==== Sys2Proof/Machine/Flags.lean ====
section
/-! DEFINITION. The block has no status flags and no condition codes (spec/10_state.md R18). Its derived booleans stand
here: the connection predicates (spec/42_input_conditioner.md R75), never stored, the active-low reading of a switch line
(spec/00_scope.md R14), and the code of a status (spec/30_encoding.md R58). -/

namespace Sys2Proof.Machine

open Sys2Proof

/-- R75: `connected = rawSample < threshold`. -/
def belowThreshold (r : Raw10) (threshold : Nat) : Bool := decide (r.val < threshold)

/-- R75: `jackConnected(r) = (r < JACK_THRESHOLD)`. -/
def jackConnected (c : Config) (r : Raw10) : Bool := belowThreshold r c.consts.jackThreshold

/-- R75: `masterConnected(r) = (r < MASTER_THRESHOLD)`. -/
def masterConnected (c : Config) (r : Raw10) : Bool := belowThreshold r c.consts.masterThreshold

/-- R14, R86 to R88: the logical value of an active-low line is the NOT of its raw level. -/
def activeLow (d : Bit) : Bool := d == low

/-- R58, R94: `OK` is encoded 0 and `ILLEGAL` 1. -/
def statusCode : Status → Nat
  | .ok => 0
  | .illegal => 1

end Sys2Proof.Machine
end

