-- ==== Sys2Proof/Machine/Mapper.lean ====
section
/-! DEFINITION. The mappings between physical values, DAC codes and raw samples, exact in the rationals
(spec/00_scope.md R10): the output transform and its inverse (spec/41_output_mapper.md R69, R73) and the input mappings
(spec/42_input_conditioner.md R76 to R78). -/

namespace Sys2Proof.Machine

open Sys2Proof

/-- R71: `clamp(value, minVal, maxVal)`. -/
def clampToRange (c : Config) (v : PhysNum) : PhysNum := clamp v c.minVal c.maxVal

/-- R69: `q = CODE_MIN + CODE_SPAN * (u - minVal) / (maxVal - minVal)`. -/
def affineCode (c : Config) (u : PhysNum) : PhysNum :=
  (c.consts.codeMin : PhysNum) + (c.consts.codeSpan : PhysNum) * (u - c.minVal) / (c.maxVal - c.minVal)

/-- R69: `clamp(floor(q), CODE_MIN, CODE_MAX)` as an integer. -/
def codeOfAffine (c : Config) (q : PhysNum) : Int :=
  clamp ⌊q⌋ (c.consts.codeMin : Int) (c.consts.codeMax : Int)

/-- R69: the OutputCode of a physical value, as an integer. -/
def outputLevel (c : Config) (v : PhysNum) : Int := codeOfAffine c (affineCode c (clampToRange c v))

/-- R69: `outputCode(v) : Code12`. -/
def outputCode (c : Config) (v : PhysNum) : Code12 := BitVec.ofInt 12 (outputLevel c v)

/-- R73: the affine inverse of the transform; no command computes it (decision D22). -/
def decodeCode (c : Config) (code : Int) : PhysNum :=
  c.minVal + ((code : PhysNum) - (c.consts.codeMin : PhysNum)) * (c.maxVal - c.minVal) / (c.consts.codeSpan : PhysNum)

/-- R70 item 5: one code step in physical units. -/
def codeStep (c : Config) : PhysNum := (c.maxVal - c.minVal) / (c.consts.codeSpan : PhysNum)

/-- R76: the generic-channel mapping. -/
def physStd (c : Config) (r : Raw10) : PhysNum :=
  clamp (c.minVal + (c.maxVal - c.minVal) * (((r.val : Int) - c.consts.stdOffset : Int) : PhysNum) /
    (c.consts.stdSpan : PhysNum)) c.minVal c.maxVal

/-- R77: the master-line mapping. -/
def unitMaster (c : Config) (r : Raw10) : PhysNum :=
  clamp ((((r.val : Int) - c.consts.masterOffset : Int) : PhysNum) / (c.consts.masterSpan : PhysNum)) 0 1

/-- R78: the potentiometer mapping, without a clamp. It lies in [0, 1] for a sample no greater than POT_DIVISOR, so always
with the constants of Table P1; that with a POT_DIVISOR below RAW_MAX (R19 allows it) a greater sample gives a value above 1
is the model's (DESIGN CHOICE, log entry 16). -/
def unitPot (c : Config) (r : Raw10) : PhysNum := (r.val : PhysNum) / (c.consts.potDivisor : PhysNum)

end Sys2Proof.Machine
end

