-- ==== Sys2Proof/Machine/Ops.lean ====
section
/-! DEFINITION. The named operations on the state: the four collaborator primitives (spec/20_memory.md R30 to R33), the
cache writes (spec/10_state.md R25), answering (spec/30_encoding.md R58), the ILLEGAL answer (spec/43_diagnostic_and_control.md
R92), reset (spec/70_reset_and_hazards.md R106), and a command as the sequence of primitives it performs.

The block has no traps (spec/60_exceptions.md R93, R98, R99): there is no exception entry and no return from one. Its one
abnormal outcome of a word is the ILLEGAL answer of `State.answerIllegal`. -/

namespace Sys2Proof.Machine

open Sys2Proof

/-- R12: appends an event to the trace. -/
def State.emit (s : State) (e : Event) : State := { s with trace := s.trace ++ [e] }

/-- R30 `MemWrite(line, 1, v)`: the event, and `clk` or `dat` when the line is CLOCK or DATA (R23). -/
def State.drive (s : State) (line : LineId) (v : Bit) : State :=
  { s with
    clk := if line = s.cfg.pins.clock then v else s.clk
    dat := if line = s.cfg.pins.data then v else s.dat
    trace := s.trace ++ [.set line v] }

/-- R33 `Delay(n)`. -/
def State.wait (s : State) (n : Nat) : State := s.emit (.delay n)

/-- R31: the collaborator's answer to the next analog sample: the draw listed next, or else the free value. -/
def State.nextRaw (s : State) : Raw10 :=
  sampleOf s.cfg.consts (s.analogIn.head?.getD (Config.freeRaw s.draws))

/-- R31 `MemRead(line, 10)`: the next analog answer is used up and the event records it. -/
def State.sampled (s : State) (line : LineId) : State :=
  { s with analogIn := s.analogIn.tail, draws := s.draws + 1, trace := s.trace ++ [.sample line s.nextRaw] }

/-- R32: the collaborator's answer to the next digital read. -/
def State.nextBit (s : State) : Bit := s.digitalIn.head?.getD (Config.freeBit s.draws)

/-- R32 `MemRead(line, 1)`: the next digital answer is used up and the event records it. -/
def State.wasRead (s : State) (line : LineId) : State :=
  { s with digitalIn := s.digitalIn.tail, draws := s.draws + 1, trace := s.trace ++ [.read line s.nextBit] }

/-- R25: the one cache entry a command writes. -/
inductive CacheWrite where
  | nothing
  | out (u : PhysNum)
  | ins (i : Fin 6) (v : PhysNum)
  | pot (p : PhysNum)
  deriving DecidableEq, Repr

/-- R25: writing a cache. -/
def State.writeCache (s : State) : CacheWrite → State
  | .nothing => s
  | .out u => { s with outCache := some u }
  | .ins i v => { s with insCache := s.insCache.set i.val (some v) i.isLt }
  | .pot p => { s with potCache := some p }

/-- R12 `return (OK, r)`: the cache write, the answer, and the sequencer Idle (R26). -/
def State.finish (s : State) (w : CacheWrite) (r : Result) : State :=
  { s.writeCache w with seq := .idle, answer := some ⟨.ok, r⟩ }

/-- R92: an illegal word answers `(ILLEGAL, none)` and does nothing else. -/
def State.answerIllegal (s : State) : State := { s with answer := some ⟨.illegal, .none⟩ }

/-- R113: the caller presents a command, behind those already waiting. -/
def State.present (s : State) (req : Request) : State := { s with inbox := s.inbox ++ [req] }

/-- R106: Reset. -/
def State.performReset (s : State) : State :=
  let cleared : State :=
    { s with seq := .idle, outCache := none, insCache := Vector.replicate 6 none, potCache := none }
  { (cleared.drive s.cfg.pins.clock high).drive s.cfg.pins.data high with boot := .running }

/-- R12: a command as the sequence of primitives its pseudocode performs, ending in `return (OK, r)`. What follows a
read depends on the value read. -/
inductive Proc where
  | done (w : CacheWrite) (r : Result)
  | drive (line : LineId) (v : Bit) (rest : Proc)
  | wait (n : Nat) (rest : Proc)
  | sample (line : LineId) (rest : Raw10 → Proc)
  | read (line : LineId) (rest : Bit → Proc)

/-- R3, R90: a command performed as one atomic operation, each primitive complete before the next begins (R34). -/
def Proc.run : Proc → State → State
  | .done w r, s => s.finish w r
  | .drive line v rest, s => rest.run (s.drive line v)
  | .wait n rest, s => rest.run (s.wait n)
  | .sample line rest, s => (rest s.nextRaw).run (s.sampled line)
  | .read line rest, s => (rest s.nextBit).run (s.wasRead line)

/-- R90, R95: a command on an instance whose configuration is not well-formed is refused; otherwise it is performed.
That the sequencer is Idle is `step`'s to check (log entry 12). -/
def perform (p : Proc) (s : State) : Host.Outcome State Fault Refusal :=
  if configWf s.cfg then .next (p.run s) else .refused .configRefused

end Sys2Proof.Machine
end

