-- ==== Sys2Proof/Machine/Diagnostic.lean ====
section
/-! DEFINITION. SNAPSHOT, the read of the diagnostic caches (spec/43_diagnostic_and_control.md R91). -/

namespace Sys2Proof.Machine

open Sys2Proof

/-- R91: what SNAPSHOT reports; an entry no command has written since reset reads as unset (R24). -/
def snapshotOf (s : State) : Snapshot := ⟨s.outCache, s.insCache, s.potCache⟩

/-- R91 SNAPSHOT: no event, no state change. -/
def snapshotProc (s : State) : Proc := .done .nothing (.snap (snapshotOf s))

/-- R91. -/
def execSnapshot (s : State) : Host.Outcome State Fault Refusal := perform (snapshotProc s) s

end Sys2Proof.Machine
end

