-- ==== Sys2Proof/Machine/Input.lean ====
section
/-! DEFINITION. The nine read commands of the Signal Conditioner (spec/42_input_conditioner.md R79 to R88). -/

namespace Sys2Proof.Machine

open Sys2Proof

/-- R79 CheckedSample(line, threshold), then `rest` on the pair it returns: one sample for the test, and a second one for
the value when the test passed and ADC_RESAMPLE is set. -/
def checkedSample (c : Config) (line : LineId) (threshold : Nat) (rest : Bool → Raw10 → Proc) : Proc :=
  .sample line fun rc =>
    if belowThreshold rc threshold then
      if c.adcResample then .sample line fun rv => rest true rv else rest true rc
    else rest false rc

/-- R80 IS_CONNECTED. -/
def isConnectedProc (ch : Int) (s : State) : Proc :=
  .sample s.cfg.pins.ain[clampCh s.cfg.consts ch] fun r => .done .nothing (.bool (jackConnected s.cfg r))

/-- R80. -/
def execIsConnected (ch : Int) (s : State) : Host.Outcome State Fault Refusal := perform (isConnectedProc ch s) s

/-- R81 READ_ANALOG: the value is cached on the connected and on the disconnected path. -/
def readAnalogProc (ch : Int) (s : State) : Proc :=
  checkedSample s.cfg s.cfg.pins.ain[clampCh s.cfg.consts ch] s.cfg.consts.jackThreshold fun conn r =>
    let v := if conn then physStd s.cfg r else s.cfg.minVal
    .done (.ins (clampCh s.cfg.consts ch) v) (.phys v)

/-- R81. -/
def execReadAnalog (ch : Int) (s : State) : Host.Outcome State Fault Refusal := perform (readAnalogProc ch s) s

/-- R82 READ_DIGITAL: the digital line is read only when the analog test passes, and is not inverted. -/
def readDigitalProc (ch : Int) (s : State) : Proc :=
  .sample s.cfg.pins.ain[clampCh s.cfg.consts ch] fun r =>
    if jackConnected s.cfg r then .read s.cfg.pins.din[clampCh s.cfg.consts ch] fun d => .done .nothing (.bit d)
    else .done .nothing (.bit low)

/-- R82. -/
def execReadDigital (ch : Int) (s : State) : Host.Outcome State Fault Refusal := perform (readDigitalProc ch s) s

/-- R83 READ_POT: no connection check; the value is cached. -/
def readPotProc (s : State) : Proc :=
  .sample s.cfg.pins.pot fun r => .done (.pot (unitPot s.cfg r)) (.unit (unitPot s.cfg r))

/-- R83. -/
def execReadPot (s : State) : Host.Outcome State Fault Refusal := perform (readPotProc s) s

/-- R84 IS_MASTER_CONNECTED. -/
def isMasterConnectedProc (s : State) : Proc :=
  .sample s.cfg.pins.masterAnalog fun r => .done .nothing (.bool (masterConnected s.cfg r))

/-- R84. -/
def execIsMasterConnected (s : State) : Host.Outcome State Fault Refusal := perform (isMasterConnectedProc s) s

/-- R85 READ_MASTER: nothing is cached. -/
def readMasterProc (s : State) : Proc :=
  checkedSample s.cfg s.cfg.pins.masterAnalog s.cfg.consts.masterThreshold fun conn r =>
    .done .nothing (.unit (if conn then unitMaster s.cfg r else 0))

/-- R85. -/
def execReadMaster (s : State) : Host.Outcome State Fault Refusal := perform (readMasterProc s) s

/-- R86 READ_DIP. -/
def readDipProc (idx : Int) (s : State) : Proc :=
  .read s.cfg.pins.dip[clampDip s.cfg.consts idx] fun d => .done .nothing (.bool (activeLow d))

/-- R86. -/
def execReadDip (idx : Int) (s : State) : Host.Outcome State Fault Refusal := perform (readDipProc idx s) s

/-- R87 READ_SWITCH. -/
def readSwitchProc (s : State) : Proc := .read s.cfg.pins.sw fun d => .done .nothing (.bool (activeLow d))

/-- R87. -/
def execReadSwitch (s : State) : Host.Outcome State Fault Refusal := perform (readSwitchProc s) s

/-- R88 READ_MASTER_SWITCH: no master connection check. -/
def readMasterSwitchProc (s : State) : Proc :=
  .read s.cfg.pins.masterSw fun d => .done .nothing (.bool (activeLow d))

/-- R88. -/
def execReadMasterSwitch (s : State) : Host.Outcome State Fault Refusal := perform (readMasterSwitchProc s) s

end Sys2Proof.Machine
end

