-- ==== Sys2Proof/Machine/Encoder.lean ====
section
/-! DEFINITION. The Protocol Encoder: a frame as a number (spec/30_encoding.md R47), the start condition, write-one-bit
and stop condition (spec/40_protocol_encoder.md R61 to R64), and TRANSMIT (R65). -/

namespace Sys2Proof.Machine

open Sys2Proof

/-- R47: bits read as a number, the first the most significant (for a frame: slot 1 is bit 26 and slot 27 bit 0). -/
def bitsValue (bits : List Bit) : Nat := bits.foldl (fun n b => 2 * n + b.toNat) 0

/-- R61 StartCondition, then `rest`. -/
def startCondition (c : Config) (rest : Proc) : Proc :=
  .drive c.pins.data low (.wait c.consts.holdUs (.drive c.pins.clock low rest))

/-- R62 WriteBit(b), then `rest`. -/
def writeBit (c : Config) (b : Bit) (rest : Proc) : Proc :=
  .drive c.pins.data b (.drive c.pins.clock high (.wait c.consts.holdUs
    (.drive c.pins.clock low (.wait c.consts.holdUs rest))))

/-- R63 StopCondition, then `rest`. -/
def stopCondition (c : Config) (rest : Proc) : Proc :=
  .drive c.pins.clock high (.wait c.consts.holdUs (.drive c.pins.data high (.wait c.consts.holdUs rest)))

/-- R64 Transmit(code), then `rest`: start condition, one WriteBit per slot of the frame, stop condition. -/
def transmit (c : Config) (code : Code12) (rest : Proc) : Proc :=
  startCondition c ((sentSlots c.consts code).foldr (writeBit c) (stopCondition c rest))

/-- R65 TRANSMIT: the code is sent as it stands, not clamped (decision D8), and no cache is written. -/
def transmitProc (code : Code12) (s : State) : Proc := transmit s.cfg code (.done .nothing .none)

/-- R65. -/
def execTransmit (code : Code12) (s : State) : Host.Outcome State Fault Refusal := perform (transmitProc code s) s

end Sys2Proof.Machine
end

