-- ==== Sys2Proof/Machine/Output.lean ====
section
/-! DEFINITION. The output mapper's commands (spec/41_output_mapper.md R71, R72). -/

namespace Sys2Proof.Machine

open Sys2Proof

/-- R71: `WRITE_OUTPUT(value)`: the clamped value is cached and its code sent. The cache is written at the command's
end, which R71 says cannot be observed (log entry 11). -/
def writeOutputProc (value : PhysNum) (s : State) : Proc :=
  let u := clampToRange s.cfg value
  transmit s.cfg (outputCode s.cfg u) (.done (.out u) .none)

/-- R71 WRITE_OUTPUT: the value is VALUE_IN (R54). -/
def execWriteOutput (s : State) : Host.Outcome State Fault Refusal := perform (writeOutputProc s.valueIn s) s

/-- R72: `if b = 1 then WRITE_OUTPUT(maxVal) else WRITE_OUTPUT(minVal)`. -/
def writeDigitalOutputProc (b : Bit) (s : State) : Proc :=
  writeOutputProc (if b then s.cfg.maxVal else s.cfg.minVal) s

/-- R72 WRITE_DIGITAL_OUTPUT. -/
def execWriteDigitalOutput (b : Bit) (s : State) : Host.Outcome State Fault Refusal :=
  perform (writeDigitalOutputProc b s) s

end Sys2Proof.Machine
end

