-- ==== Sys2Proof/Machine/Dispatch.lean ====
section
/-! DEFINITION. Command dispatch (spec/43_diagnostic_and_control.md R90): one arm per command. -/

namespace Sys2Proof.Machine

open Sys2Proof

def exec (i : Instr) (s : State) : Host.Outcome State Fault Refusal :=
  match i with
  | .transmit code => Sys2Proof.Machine.execTransmit code s
  | .writeOutput => Sys2Proof.Machine.execWriteOutput s
  | .writeDigitalOutput b => Sys2Proof.Machine.execWriteDigitalOutput b s
  | .isConnected ch => Sys2Proof.Machine.execIsConnected ch s
  | .readAnalog ch => Sys2Proof.Machine.execReadAnalog ch s
  | .readDigital ch => Sys2Proof.Machine.execReadDigital ch s
  | .readPot => Sys2Proof.Machine.execReadPot s
  | .isMasterConnected => Sys2Proof.Machine.execIsMasterConnected s
  | .readMaster => Sys2Proof.Machine.execReadMaster s
  | .readDip idx => Sys2Proof.Machine.execReadDip idx s
  | .readSwitch => Sys2Proof.Machine.execReadSwitch s
  | .readMasterSwitch => Sys2Proof.Machine.execReadMasterSwitch s
  | .snapshot => Sys2Proof.Machine.execSnapshot s

end Sys2Proof.Machine
end

