-- ==== Sys2Proof/Machine/Sequencer.lean ====
section
/-! DEFINITION. Command sequencing (spec/43_diagnostic_and_control.md R90, spec/70_reset_and_hazards.md R106, R108, R113) and
the refined, event-by-event view of a command (spec/10_state.md R26). -/

namespace Sys2Proof.Machine

open Sys2Proof

/-- R90: the primitives each command performs (the sequence `exec` runs as one atomic operation). -/
def procOf (i : Instr) (s : State) : Proc :=
  match i with
  | .transmit code => transmitProc code s
  | .writeOutput => writeOutputProc s.valueIn s
  | .writeDigitalOutput b => writeDigitalOutputProc b s
  | .isConnected ch => isConnectedProc ch s
  | .readAnalog ch => readAnalogProc ch s
  | .readDigital ch => readDigitalProc ch s
  | .readPot => readPotProc s
  | .isMasterConnected => isMasterConnectedProc s
  | .readMaster => readMasterProc s
  | .readDip idx => readDipProc idx s
  | .readSwitch => readSwitchProc s
  | .readMasterSwitch => readMasterSwitchProc s
  | .snapshot => snapshotProc s

/-- R26: what is left of a command after the events it has issued; none if they are not its own. -/
def Proc.after : Proc → List Event → Option Proc
  | p, [] => some p
  | .drive line v rest, .set line' v' :: es => if line = line' ∧ v = v' then rest.after es else none
  | .wait n rest, .delay n' :: es => if n = n' then rest.after es else none
  | .sample line rest, .sample line' r :: es => if line = line' then (rest r).after es else none
  | .read line rest, .read line' b :: es => if line = line' then (rest b).after es else none
  | _, _ :: _ => none

/-- R26: the next event of a command issued, with what is then left of it; none if no event is left. -/
def Proc.issue : Proc → State → Option (Proc × State)
  | .done _ _, _ => none
  | .drive line v rest, s => some (rest, s.drive line v)
  | .wait n rest, s => some (rest, s.wait n)
  | .sample line rest, s => some (rest s.nextRaw, s.sampled line)
  | .read line rest, s => some (rest s.nextBit, s.wasRead line)

/-- R26: what is left of the command in progress, read off the last `k` events of the trace. -/
def State.remaining (s : State) (i : Instr) (k : Nat) : Option Proc :=
  if k ≤ s.trace.length then (procOf i s).after (s.trace.drop (s.trace.length - k)) else none

/-- R26: "each event advances k by one, and issuing the last event returns `seq` to `Idle`" (with the command's cache
write and answer, log entry 11). -/
def continueCommand (i : Instr) (k : Nat) (s : State) : Host.Outcome State Fault Refusal :=
  match (s.remaining i k).bind (fun p => p.issue s) with
  | some (.done w r, s') => .next (s'.finish w r)
  | some (_, s') => .next { s' with seq := .busy i (k + 1) }
  | none => .fault .sequencerOutOfStep

/-- R26: "a command takes `Idle -> Busy(cmd, 0)`"; a command with no event (SNAPSHOT, R91) completes at once, since
Busy(cmd, k) has `k` below the number of its events. -/
def beginCommand (i : Instr) (s : State) : Host.Outcome State Fault Refusal :=
  match procOf i s with
  | .done w r => perform (.done w r) s
  | _ => .next { s with seq := .busy i 0 }

/-- R90: the block takes the command presented first: an illegal word is answered (R92), a command is handed to `accept`
with its VALUE_IN. With none presented it waits (R107; log entry 10). -/
def acceptNext (accept : Instr → State → Host.Outcome State Fault Refusal) (s : State) :
    Host.Outcome State Fault Refusal :=
  match s.inbox with
  | [] => .next s
  | req :: waiting =>
    match decode req.word with
    | .illegal _ => .next { s.answerIllegal with inbox := waiting }
    | .command i => accept i { s with inbox := waiting, valueIn := req.valueIn }

/-- R90 with its preconditions: an ill-formed configuration is refused (R95); Reset runs once, before any command (R106,
R108); while the sequencer is Busy a presented command is held (R113) and the command in progress goes on (R26, R112);
otherwise the next command is taken, by `accept`. -/
def stepWith (accept : Instr → State → Host.Outcome State Fault Refusal) (s : State) :
    Host.Outcome State Fault Refusal :=
  if configWf s.cfg then
    match s.boot with
    | .awaitingReset => if s.inbox.isEmpty then .next s.performReset else .fault .commandBeforeReset
    | .running =>
      match s.seq with
      | .busy i k => continueCommand i k s
      | .idle => acceptNext accept s
  else .refused .configRefused

/-- R26: one step of the refined view, in which a command issues one event a step. -/
def tick (s : State) : Host.Outcome State Fault Refusal := stepWith beginCommand s

/-- `n` refined steps, stopping at the first fault or refusal. -/
def ticks : Nat → State → Host.Outcome State Fault Refusal
  | 0, s => .next s
  | n + 1, s =>
    match tick s with
    | .next t => ticks n t
    | .fault f => .fault f
    | .refused r => .refused r

/-- The caller presents `word` so that the very next step performs it (log entry 3): ahead of whatever waits, after
reset, with the sequencer Idle. VALUE_IN is the one the state holds. -/
def State.presentFirst (s : State) (word : CmdWord) : State :=
  { s with boot := .running, seq := .idle, inbox := ⟨word, s.valueIn⟩ :: s.inbox }

end Sys2Proof.Machine
end

