-- ==== Sys2Proof/Machine/Step.lean ====
section
/-! DEFINITION. One step of the machine: one command, atomic (spec/43_diagnostic_and_control.md R90, spec/00_scope.md R3). -/

namespace Sys2Proof.Machine

open Sys2Proof

/-- R90: "The block performs one command per step." -/
def step (s : State) : Host.Outcome State Fault Refusal := stepWith exec s

/-- The instruction in the `nbits` low bits of `w` (one 16-bit word, R51, R59) presented for the next step. -/
def State.withFetchWord (s : State) (nbits w : Nat) : State := s.presentFirst (BitVec.ofNat 16 (w % 2 ^ nbits))

end Sys2Proof.Machine
end

