-- ==== Sys2Proof/Machine/Asm.lean ====
section
/-! DEFINITION. The assembler syntax of spec/30_encoding.md R60: a line's text read into a mnemonic and an operand, a line
assembled into the request it presents, and a command written as a line. There are no pseudo-instructions (decision D26). -/

namespace Sys2Proof.Machine

open Sys2Proof

/-- R60: the operand of a line: none, `#` and a signed decimal, `#` and a 0x-hexadecimal, or a rational (VALUE_IN). -/
inductive AsmOperand where
  | absent
  | imm (n : Int)
  | hexImm (n : Nat)
  | value (q : PhysNum)
  deriving DecidableEq, Repr

/-- R60: `MNEMONIC` or `MNEMONIC operand`. -/
structure AsmLine where
  mnemonic : String
  operand : AsmOperand
  deriving DecidableEq, Repr

/-- The value of a digit of the given base; lower- and upper-case hexadecimal letters (log entry 14). -/
def digitValue (base : Nat) (ch : Char) : Option Nat :=
  let n := ch.toNat
  let d :=
    if 48 ≤ n ∧ n ≤ 57 then n - 48
    else if 97 ≤ n ∧ n ≤ 102 then n - 87
    else if 65 ≤ n ∧ n ≤ 70 then n - 55
    else base
  if d < base then some d else none

/-- The number whose digits in the given base follow those of `acc`. -/
def digitsFrom (base : Nat) : Nat → List Char → Option Nat
  | acc, [] => some acc
  | acc, ch :: rest =>
    match digitValue base ch with
    | some d => digitsFrom base (base * acc + d) rest
    | none => none

/-- A natural number: at least one digit. -/
def parseNat (base : Nat) : List Char → Option Nat
  | [] => none
  | ch :: rest => digitsFrom base 0 (ch :: rest)

/-- R60 `#<int>`: decimal digits, after a minus sign for a negative integer. That a plus sign is refused and leading zeros
are read is the model's (DESIGN CHOICE, log entry 14). -/
def parseInt : List Char → Option Int
  | '-' :: rest => (parseNat 10 rest).map fun n => -(n : Int)
  | cs => (parseNat 10 cs).map fun n => (n : Int)

/-- R60: a rational, for example `5` or `-3/2`. R60 gives these two examples and no grammar; that a rational is written as an
integer or as an integer, a slash and a natural number other than 0, in lowest terms or not, and that a decimal point, an
exponent, a plus sign and blanks are refused is the model's (DESIGN CHOICE, log entry 14). -/
def parseRational (cs : List Char) : Option PhysNum :=
  match cs.span (· ≠ '/') with
  | (num, []) => (parseInt num).map fun n => (n : PhysNum)
  | (num, _ :: den) =>
    match parseInt num, parseNat 10 den with
    | some n, some d => if d = 0 then none else some ((n : PhysNum) / (d : PhysNum))
    | _, _ => none

/-- R60: an operand's text. -/
def parseOperand : List Char → Option AsmOperand
  | '#' :: '0' :: 'x' :: cs => (parseNat 16 cs).map .hexImm
  | '#' :: cs => (parseInt cs).map .imm
  | cs => (parseRational cs).map .value

/-- R60: a line's text: the mnemonic, and the operand after one space. -/
def parseLine (text : String) : Option AsmLine :=
  match text.toList.span (· ≠ ' ') with
  | (m, []) => some ⟨String.ofList m, .absent⟩
  | (m, _ :: cs) => (parseOperand cs).map fun o => ⟨String.ofList m, o⟩

/-- R60 `TRANSMIT #<code>`: 0..4095. -/
def asmCode (n : Int) : Option Instr :=
  if 0 ≤ n ∧ n ≤ 4095 then some (.transmit (BitVec.ofInt 12 n)) else none

/-- R60 `WRITE_DIGITAL_OUTPUT #<0|1>`. -/
def asmBit (n : Int) : Option Instr :=
  if n = 0 then some (.writeDigitalOutput low) else if n = 1 then some (.writeDigitalOutput high) else none

/-- R60 `#<int>`: a signed integer in -2048..2047. -/
def asmIdx (f : Int → Instr) (n : Int) : Option Instr := if idx12Wf n then some (f n) else none

/-- R60: the command a line names; a line of no form R60 lists names none. -/
def asmInstr (l : AsmLine) : Option Instr :=
  match l.operand with
  | .hexImm n => if l.mnemonic = "TRANSMIT" then asmCode n else none
  | .imm n =>
    if l.mnemonic = "TRANSMIT" then asmCode n
    else if l.mnemonic = "WRITE_DIGITAL_OUTPUT" then asmBit n
    else if l.mnemonic = "IS_CONNECTED" then asmIdx .isConnected n
    else if l.mnemonic = "READ_ANALOG" then asmIdx .readAnalog n
    else if l.mnemonic = "READ_DIGITAL" then asmIdx .readDigital n
    else if l.mnemonic = "READ_DIP" then asmIdx .readDip n
    else none
  | .value _ => if l.mnemonic = "WRITE_OUTPUT" then some .writeOutput else none
  | .absent =>
    if l.mnemonic = "READ_POT" then some .readPot
    else if l.mnemonic = "IS_MASTER_CONNECTED" then some .isMasterConnected
    else if l.mnemonic = "READ_MASTER" then some .readMaster
    else if l.mnemonic = "READ_SWITCH" then some .readSwitch
    else if l.mnemonic = "READ_MASTER_SWITCH" then some .readMasterSwitch
    else if l.mnemonic = "SNAPSHOT" then some .snapshot
    else none

/-- VALUE_IN of a line: the rational of WRITE_OUTPUT; every other command ignores VALUE_IN (R54), and 0 stands there
(DESIGN CHOICE, log entry 14). -/
def asmValue : AsmOperand → PhysNum
  | .value q => q
  | _ => 0

/-- R60: the request a line presents. -/
def assemble (l : AsmLine) : Option Request :=
  (asmInstr l).map fun i => ⟨encode i, asmValue l.operand⟩

/-- R60: a command, and the VALUE_IN presented with it, written as a line. -/
def disassemble (i : Instr) (value : PhysNum) : AsmLine :=
  { mnemonic := i.mnemonic
    operand :=
      match i with
      | .transmit code => .imm code.toNat
      | .writeOutput => .value value
      | .writeDigitalOutput b => .imm (if b then 1 else 0)
      | .isConnected ch => .imm ch
      | .readAnalog ch => .imm ch
      | .readDigital ch => .imm ch
      | .readPot => .absent
      | .isMasterConnected => .absent
      | .readMaster => .absent
      | .readDip idx => .imm idx
      | .readSwitch => .absent
      | .readMasterSwitch => .absent
      | .snapshot => .absent }

end Sys2Proof.Machine
end

