-- ==== Sys2Proof/Safety.lean ====
section
/-! DEFINITION. What the statements about runs are said in: the events the spec lists for a Transmit, the waveform of the
two lines, which lines the block may touch, and the conditions that hold at every command boundary. -/

namespace Sys2Proof.Machine

open Sys2Proof

/-- R61: the three events of the start condition. -/
def startEvents (c : Config) : List Event :=
  [.set c.pins.data low, .delay c.consts.holdUs, .set c.pins.clock low]

/-- R62: the five events of one slot. -/
def slotEvents (c : Config) (b : Bit) : List Event :=
  [.set c.pins.data b, .set c.pins.clock high, .delay c.consts.holdUs, .set c.pins.clock low, .delay c.consts.holdUs]

/-- R63: the four events of the stop condition. -/
def stopEvents (c : Config) : List Event :=
  [.set c.pins.clock high, .delay c.consts.holdUs, .set c.pins.data high, .delay c.consts.holdUs]

/-- R64: the events of one Transmit, as spec/95_test_vectors.md section 2.2 lists them. -/
def transmitEvents (c : Config) (code : Code12) : List Event :=
  startEvents c ++ (frame code).flatMap (slotEvents c) ++ stopEvents c

/-- R68: a Set event. -/
def Event.isSet : Event → Bool
  | .set _ _ => true
  | .delay _ => false
  | .sample _ _ => false
  | .read _ _ => false

/-- R114: the microseconds an event requests. -/
def Event.requestedUs : Event → Nat
  | .set _ _ => 0
  | .delay n => n
  | .sample _ _ => 0
  | .read _ _ => 0

/-- R21, R23, R29, R44: the lines an event may touch: Set on CLOCK and DATA, Sample on the analog inputs, Read on the
digital inputs. -/
def Event.onOwnLine (p : PinMap) : Event → Prop
  | .set line _ => line = p.clock ∨ line = p.data
  | .delay _ => True
  | .sample line _ => line ∈ p.ain.toList ∨ line = p.pot ∨ line = p.masterAnalog
  | .read line _ => line ∈ p.din.toList ∨ line ∈ p.dip.toList ∨ line = p.sw ∨ line = p.masterSw

/-- R67: the levels the block drives on the two lines. -/
structure Levels where
  clk : Bit
  dat : Bit
  deriving DecidableEq, Repr

/-- R23, R30: the levels after an event. -/
def Levels.after (p : PinMap) (l : Levels) : Event → Levels
  | .set line v => ⟨if line = p.clock then v else l.clk, if line = p.data then v else l.dat⟩
  | .delay _ => l
  | .sample _ _ => l
  | .read _ _ => l

/-- R67: the waveform of a trace: the levels before each event, and after the last. -/
def waveform (p : PinMap) : Levels → List Event → List Levels
  | l, [] => [l]
  | l, e :: es => l :: waveform p (l.after p e) es

/-- R67 item 3: the level of DATA at each rising edge of CLOCK. -/
def dataAtRises : List Levels → List Bit
  | a :: b :: rest => (if a.clk = low ∧ b.clk = high then [b.dat] else []) ++ dataAtRises (b :: rest)
  | _ => []

/-- R67 item 3: the number of falling edges of CLOCK. -/
def clockFalls : List Levels → Nat
  | a :: b :: rest => (if a.clk = high ∧ b.clk = low then 1 else 0) + clockFalls (b :: rest)
  | _ => 0

/-- R67 items 1, 2, 4: the level DATA takes at each of its edges while CLOCK is high. -/
def dataEdgesClockHigh : List Levels → List Bit
  | a :: b :: rest =>
    (if a.clk = high ∧ b.clk = high ∧ a.dat ≠ b.dat then [b.dat] else []) ++ dataEdgesClockHigh (b :: rest)
  | _ => []

/-- R67 item 2: whether every Set on DATA is issued while `clk = 0`. -/
def dataDrivenOnlyWhileLow (p : PinMap) : Levels → List Event → Prop
  | _, [] => True
  | l, e :: es =>
    (match e with
      | .set line _ => line = p.data → l.clk = low
      | .delay _ => True
      | .sample _ _ => True
      | .read _ _ => True) ∧ dataDrivenOnlyWhileLow p (l.after p e) es

/-- R23: the commands that drive the lines. -/
def drivesLines : Instr → Bool
  | .transmit _ => true
  | .writeOutput => true
  | .writeDigitalOutput _ => true
  | .isConnected _ => false
  | .readAnalog _ => false
  | .readDigital _ => false
  | .readPot => false
  | .isMasterConnected => false
  | .readMaster => false
  | .readDip _ => false
  | .readSwitch => false
  | .readMasterSwitch => false
  | .snapshot => false

/-- R111: bus idle. -/
def State.busIdle (s : State) : Prop := s.clk = high ∧ s.dat = high

/-- R58, R71: a value lies in the Range. -/
def inRange (c : Config) (v : PhysNum) : Prop := c.minVal ≤ v ∧ v ≤ c.maxVal

/-- R24, R58: the caches hold values their commands can write. -/
def State.cachesInRange (s : State) : Prop :=
  (∀ v, s.outCache = some v → inRange s.cfg v) ∧
  (∀ (i : Fin 6) (v : PhysNum), s.insCache[i] = some v → inRange s.cfg v) ∧
  (∀ p, s.potCache = some p → 0 ≤ p ∧ p ≤ 1)

/-- What holds at every command boundary: the configuration is well-formed (R19) and the potentiometer's divisor is no
less than RAW_MAX (R78's "without a clamp"; log entry 16), Reset has run (R108), the sequencer is Idle (R26), the bus is
idle (R111) and the caches are in range. -/
structure State.AtBoundary (s : State) : Prop where
  wellFormed : configWf s.cfg = true
  potScale : s.cfg.consts.rawMax ≤ s.cfg.consts.potDivisor
  running : s.boot = .running
  idle : s.seq = .idle
  bus : s.busIdle
  caches : s.cachesInRange

/-- A function applied to the next state of an outcome; a fault or a refusal stands. -/
def mapNext (f : State → State) : Host.Outcome State Fault Refusal → Host.Outcome State Fault Refusal
  | .next s => .next (f s)
  | .fault r => .fault r
  | .refused r => .refused r

end Sys2Proof.Machine
end

