-- ==== Sys2Proof/Certificates/Slice0/Obligations.lean ====
section
/-! DEFINITION. The statements about the TN-05 core, for the provers. -/

open Sys2Proof Sys2Proof.Machine

/-! ## Encodings -/

/-- 30_encoding.md section 2 (R52 to R57): decoding an encoded well-formed command gives it back. -/
def Obligations.DecodeOfEncode : Prop :=
  ∀ i : Instr, i.wf = true → decode (encode i) = .command i

/-- 30_encoding.md section 2 (R57, "injective on legal words"): a legal word is the encoding of the well-formed command it
decodes to, so no two legal words give one command. -/
def Obligations.EncodeOfDecode : Prop :=
  ∀ (w : CmdWord) (i : Instr), decode w = .command i → i.wf = true ∧ encode i = w

/-- 30_encoding.md section 2 (R52, R57): the rows of Table E1 a word selects by `(w & mask) = match` are exactly one for a
legal word, the row of the command decoded, and none for an illegal word. -/
def Obligations.DecodeSelectsOneTableRow : Prop :=
  ∀ w : CmdWord, (tableE1.filter fun r => r.selects w).map (·.mnemonic) =
    match decode w with
    | .command i => [i.mnemonic]
    | .illegal _ => []

/-- R55, R56: the illegal words are those with opcode 0x0, 0xE or 0xF, those of form NONE with a non-zero operand field,
and those of form BIT with a non-zero `opd[11:1]`; each is illegal for its own reason. -/
def Obligations.IllegalWordsAreReservedOrNonzero : Prop :=
  ∀ (op : BitVec 4) (opd : BitVec 12),
    (decode (op ++ opd) = .illegal .reservedOpcode ↔ op = 0x0 ∨ op = 0xE ∨ op = 0xF) ∧
    (decode (op ++ opd) = .illegal .operandBitsNotZero ↔
      ((op = 0x2 ∨ op = 0x7 ∨ op = 0x8 ∨ op = 0x9 ∨ op = 0xB ∨ op = 0xC ∨ op = 0xD) ∧ opd ≠ 0) ∨
      (op = 0x3 ∧ opd.extractLsb' 1 11 ≠ 0))

/-- 95_test_vectors.md section 2.1 (0x6FFF: section 1, S9): one word of every command, and words of each kind of illegality,
written out from the spec's encoding. -/
def Obligations.SpecWordsDecode : Prop :=
  decode 0b0001000011001101 = .command (.transmit 205) ∧
  decode 0b0010000000000000 = .command .writeOutput ∧
  decode 0b0011000000000001 = .command (.writeDigitalOutput high) ∧
  decode 0b0100100000000000 = .command (.isConnected (-2048)) ∧
  decode 0b0101000000000111 = .command (.readAnalog 7) ∧
  decode 0b0110000000000011 = .command (.readDigital 3) ∧
  decode 0b0110111111111111 = .command (.readDigital (-1)) ∧
  decode 0b0111000000000000 = .command .readPot ∧
  decode 0b1000000000000000 = .command .isMasterConnected ∧
  decode 0b1001000000000000 = .command .readMaster ∧
  decode 0b1010000000000010 = .command (.readDip 2) ∧
  decode 0b1011000000000000 = .command .readSwitch ∧
  decode 0b1100000000000000 = .command .readMasterSwitch ∧
  decode 0b1101000000000000 = .command .snapshot ∧
  decode 0b0011000000000010 = .illegal .operandBitsNotZero ∧
  decode 0b0111000000000001 = .illegal .operandBitsNotZero ∧
  decode 0b0000101010111100 = .illegal .reservedOpcode

/-- 30_encoding.md section 3 (R60): a well-formed command and its VALUE_IN, written as a line, assembles to the request that
presents it. That the assembler puts 0 in an ignored VALUE_IN is the model's choice (log entry 14). -/
def Obligations.AssembleOfDisassemble : Prop :=
  ∀ (i : Instr) (v : PhysNum), i.wf = true →
    assemble (disassemble i v) = some ⟨encode i, if i = .writeOutput then v else 0⟩

/-! ## The DAC frame and the Protocol Encoder -/

/-- 30_encoding.md section 1 (R45, R47, R49): every frame has 27 slots; read as a number it is
`0x6040201 | c[11:8] << 10 | c[7:0] << 1`; slots 1-13, 18 and 27 are the constants of Table F1. -/
def Obligations.FrameLayout : Prop :=
  ∀ c : Code12,
    (frame c).length = 27 ∧
    bitsValue (frame c) = 0x6040201 ||| ((c.extractLsb' 8 4).toNat <<< 10) ||| ((c.extractLsb' 0 8).toNat <<< 1) ∧
    (frame c).take 13 = [high, high, low, low, low, low, low, low, high, low, low, low, low] ∧
    (frame c)[17]? = some high ∧ (frame c)[26]? = some high

/-- R30: `MemWrite(line, 1, v)` appends `Set(line, v)`, also when the line already has level v, sets `clk` if the line is
CLOCK and `dat` if it is DATA, and does nothing else. -/
def Obligations.MemWriteDrivesAndRecords : Prop :=
  ∀ (s : State) (line : LineId) (v : Bit) (rest : Proc),
    (Proc.drive line v rest).run s =
      rest.run { s with
        clk := if line = s.cfg.pins.clock then v else s.clk
        dat := if line = s.cfg.pins.data then v else s.dat
        trace := s.trace ++ [.set line v] }

/-- R31, R32: a read returns the answer the collaborator gives next, whatever it is, and appends it to the trace. An analog
answer is one in 0..RAW_MAX, which with the RAW_MAX of Table P1 is every Raw10. -/
def Obligations.MemReadReturnsTheDraw : Prop :=
  (∀ (s : State) (line : LineId) (r : Raw10) (later : List Raw10) (k : Raw10 → Proc),
    r.val ≤ s.cfg.consts.rawMax ∨ s.cfg.consts = Constants.tableP1 → s.analogIn = r :: later →
    (Proc.sample line k).run s =
      (k r).run { s with analogIn := later, draws := s.draws + 1, trace := s.trace ++ [.sample line r] }) ∧
  (∀ (s : State) (line : LineId) (b : Bit) (later : List Bit) (k : Bit → Proc), s.digitalIn = b :: later →
    (Proc.read line k).run s =
      (k b).run { s with digitalIn := later, draws := s.draws + 1, trace := s.trace ++ [.read line b] })

/-- R61, R62, R63: the events and the final levels of StartCondition, WriteBit and StopCondition. -/
def Obligations.EncoderProceduresDriveTheLines : Prop :=
  ∀ (s : State) (b : Bit) (rest : Proc), configWf s.cfg = true →
    (startCondition s.cfg rest).run s = rest.run { s with
      clk := low, dat := low
      trace := s.trace ++ [.set s.cfg.pins.data low, .delay s.cfg.consts.holdUs, .set s.cfg.pins.clock low] } ∧
    (writeBit s.cfg b rest).run s = rest.run { s with
      clk := low, dat := b
      trace := s.trace ++ [.set s.cfg.pins.data b, .set s.cfg.pins.clock high, .delay s.cfg.consts.holdUs,
        .set s.cfg.pins.clock low, .delay s.cfg.consts.holdUs] } ∧
    (stopCondition s.cfg rest).run s = rest.run { s with
      clk := high, dat := high
      trace := s.trace ++ [.set s.cfg.pins.clock high, .delay s.cfg.consts.holdUs, .set s.cfg.pins.data high,
        .delay s.cfg.consts.holdUs] }

/-- R65: TRANSMIT of any code, unclamped: `w = 0x1000 | code`; it sends one frame (142 events), leaves both lines at 1,
writes no cache and answers (OK, none). With the rule's example, code 205. -/
def Obligations.TransmitSendsOneFrame : Prop :=
  (∀ (code : Code12) (s : State), configWf s.cfg = true →
    decode (0x1000#16 ||| code.setWidth 16) = .command (.transmit code) ∧
    (transmitEvents s.cfg code).length = 142 ∧
    exec (.transmit code) s = .next { s with
      clk := high, dat := high, trace := s.trace ++ transmitEvents s.cfg code
      seq := .idle, answer := some ⟨.ok, .none⟩ }) ∧
  decode 0x10CD = .command (.transmit 205) ∧
  bitsValue (frame 205) = 0b110000001000000001110011011

/-- 40_protocol_encoder.md section 3 (R68): every Transmit emits 142 events, 85 Set and 57 Delay(HOLD_US), 285 µs in total
with HOLD_US = 5. -/
def Obligations.TransmitEventCounts : Prop :=
  ∀ (c : Config) (code : Code12),
    (transmitEvents c code).length = 142 ∧
    (transmitEvents c code).countP Event.isSet = 85 ∧
    (transmitEvents c code).count (.delay c.consts.holdUs) = 57 ∧
    ((transmitEvents c code).map Event.requestedUs).sum = 57 * c.consts.holdUs ∧
    (c.consts.holdUs = 5 → ((transmitEvents c code).map Event.requestedUs).sum = 285)

/-- 40_protocol_encoder.md section 3 (R67): the waveform of one Transmit from bus idle. DATA has one edge while CLOCK is
high, the falling one of the start condition (items 1, 2, 4); at CLOCK's rising edges DATA carries the frame and then,
at the stop condition, 1; CLOCK falls 28 times (item 3); within the slots DATA is driven only while `clk = 0` (item 2);
both lines end at 1 (item 5). -/
def Obligations.TransmitWaveform : Prop :=
  ∀ (c : Config) (code : Code12), configWf c = true →
    dataEdgesClockHigh (waveform c.pins ⟨high, high⟩ (transmitEvents c code)) = [low] ∧
    dataAtRises (waveform c.pins ⟨high, high⟩ (transmitEvents c code)) = frame code ++ [high] ∧
    clockFalls (waveform c.pins ⟨high, high⟩ (transmitEvents c code)) = 28 ∧
    dataDrivenOnlyWhileLow c.pins ⟨low, low⟩ ((frame code).flatMap (slotEvents c)) ∧
    (waveform c.pins ⟨high, high⟩ (transmitEvents c code)).getLast? = some ⟨high, high⟩

/-! ## The output mapper -/

/-- 41_output_mapper.md section 1 (R70 items 1 and 3): the code lies between CODE_MIN and CODE_MAX (205 and 3891 by
default), is CODE_MIN at and below minVal, and is CODE_MAX exactly at and above maxVal. -/
def Obligations.OutputCodeRangeAndEnds : Prop :=
  ∀ (c : Config) (v : PhysNum), configWf c = true →
    c.consts.codeMin ≤ (outputCode c v).toNat ∧ (outputCode c v).toNat ≤ c.consts.codeMax ∧
    (v ≤ c.minVal → (outputCode c v).toNat = c.consts.codeMin) ∧
    ((outputCode c v).toNat = c.consts.codeMax ↔ c.maxVal ≤ v)

/-- 41_output_mapper.md section 1 (R70 item 2): the transform is monotonic non-decreasing. -/
def Obligations.OutputCodeMonotone : Prop :=
  ∀ (c : Config) (v₁ v₂ : PhysNum), configWf c = true → v₁ ≤ v₂ → (outputCode c v₁).toNat ≤ (outputCode c v₂).toNat

/-- 41_output_mapper.md section 1 (R69, "the two readings agree"; R70 item 5): the code is
`CODE_MIN + floor(CODE_SPAN * t)` with `t` the clamped value's place in the Range, and leaving out the value clamp gives
the same code. -/
def Obligations.OutputCodeFormulaAndReadings : Prop :=
  ∀ (c : Config) (v : PhysNum), configWf c = true →
    ((outputCode c v).toNat : Int) = c.consts.codeMin +
      ⌊(c.consts.codeSpan : PhysNum) * ((min (max v c.minVal) c.maxVal - c.minVal) / (c.maxVal - c.minVal))⌋ ∧
    outputCode c v = BitVec.ofInt 12 (codeOfAffine c (affineCode c v))

/-- 41_output_mapper.md section 3 (R73): the round trip is within one code step below the value, exact at maxVal, and
exact precisely where `CODE_SPAN * t` is an integer. -/
def Obligations.RoundTripWithinOneStep : Prop :=
  ∀ (c : Config) (v : PhysNum), configWf c = true → c.minVal ≤ v → v ≤ c.maxVal →
    decodeCode c (outputCode c v).toNat ≤ v ∧ v < decodeCode c (outputCode c v).toNat + codeStep c ∧
    (v = c.maxVal → decodeCode c (outputCode c v).toNat = v) ∧
    (decodeCode c (outputCode c v).toNat = v ↔
      ∃ n : Int, (c.consts.codeSpan : PhysNum) * ((v - c.minVal) / (c.maxVal - c.minVal)) = n)

/-- R71: WRITE_OUTPUT caches the clamped VALUE_IN, sends its code with the 142 events of one Transmit, leaves both lines
at 1 and answers (OK, none); below the Range it sends CODE_MIN, at and above maxVal CODE_MAX, and within one step below
maxVal CODE_MAX - 1 (205, 3891 and 3890 by default). With the rule's example, 5 in the Range [0, 10]. -/
def Obligations.WriteOutputSendsTheClampedValue : Prop :=
  (∀ s : State, configWf s.cfg = true →
    decode 0x2000 = .command .writeOutput ∧
    (transmitEvents s.cfg (outputCode s.cfg (clampToRange s.cfg s.valueIn))).length = 142 ∧
    exec .writeOutput s = .next { s with
      clk := high, dat := high
      outCache := some (min (max s.valueIn s.cfg.minVal) s.cfg.maxVal)
      trace := s.trace ++ transmitEvents s.cfg (outputCode s.cfg (clampToRange s.cfg s.valueIn))
      seq := .idle, answer := some ⟨.ok, .none⟩ } ∧
    (s.valueIn ≤ s.cfg.minVal → clampToRange s.cfg s.valueIn = s.cfg.minVal ∧
      (outputCode s.cfg (clampToRange s.cfg s.valueIn)).toNat = s.cfg.consts.codeMin) ∧
    (s.cfg.maxVal ≤ s.valueIn → clampToRange s.cfg s.valueIn = s.cfg.maxVal ∧
      (outputCode s.cfg (clampToRange s.cfg s.valueIn)).toNat = s.cfg.consts.codeMax) ∧
    (s.cfg.maxVal - codeStep s.cfg ≤ s.valueIn → s.valueIn < s.cfg.maxVal →
      (outputCode s.cfg (clampToRange s.cfg s.valueIn)).toNat = s.cfg.consts.codeMax - 1)) ∧
  (∀ w : CmdWord, 0x2001 ≤ w → w ≤ 0x2FFF → decode w = .illegal .operandBitsNotZero) ∧
  (∀ p : PinMap, outputCode { minVal := 0, maxVal := 10, pins := p } 5 = 2048) ∧
  bitsValue (frame 2048) = 0b110000001000010001000000001

/-- R72: WRITE_DIGITAL_OUTPUT sends CODE_MAX and caches maxVal for 1, sends CODE_MIN and caches minVal for 0, and equals
WRITE_OUTPUT of that value in events, state and result (VALUE_IN, which it ignores, apart). With the rule's example. -/
def Obligations.WriteDigitalOutputIsFullScale : Prop :=
  (∀ (b : Bit) (s : State), configWf s.cfg = true →
    decode (0x3000#16 ||| (BitVec.ofBool b).setWidth 16) = .command (.writeDigitalOutput b) ∧
    exec (.writeDigitalOutput b) s = .next { s with
      clk := high, dat := high
      outCache := some (if b = high then s.cfg.maxVal else s.cfg.minVal)
      trace := s.trace ++ transmitEvents s.cfg
        (BitVec.ofNat 12 (if b = high then s.cfg.consts.codeMax else s.cfg.consts.codeMin))
      seq := .idle, answer := some ⟨.ok, .none⟩ } ∧
    mapNext (fun t => { t with valueIn := s.valueIn })
        (exec .writeOutput { s with valueIn := if b = high then s.cfg.maxVal else s.cfg.minVal }) =
      exec (.writeDigitalOutput b) s) ∧
  (∀ w : CmdWord, 0x3002 ≤ w → w ≤ 0x3FFF → decode w = .illegal .operandBitsNotZero) ∧
  bitsValue (frame 3891) = 0b110000001000011111001100111

/-! ## The input conditioner -/

/-- R74: an index is used clamped to 0..NUM_CHANNELS - 1 or 0..NUM_DIPS - 1, so that one below the domain aliases to the
first entry and one above it to the last; with the constants of Table P1 the domains are 0..5 and 0..1. -/
def Obligations.IndexClamping : Prop :=
  ∀ (c : Config) (n : Int), configWf c = true →
    ((clampCh c.consts n).val : Int) = min (max n 0) ((c.consts.numChannels : Int) - 1) ∧
    ((clampDip c.consts n).val : Int) = min (max n 0) ((c.consts.numDips : Int) - 1) ∧
    (c.consts = Constants.tableP1 →
      (n ≤ 0 → (clampCh c.consts n).val = 0 ∧ (clampDip c.consts n).val = 0) ∧
      (5 ≤ n → (clampCh c.consts n).val = 5) ∧ (1 ≤ n → (clampDip c.consts n).val = 1) ∧
      (0 ≤ n → n ≤ 5 → ((clampCh c.consts n).val : Int) = n) ∧
      (0 ≤ n → n ≤ 1 → ((clampDip c.consts n).val : Int) = n))

/-- R76: the generic-channel mapping, for every STD_OFFSET and STD_SPAN: the clamped affine formula, which is minVal up to
STD_OFFSET, maxVal from STD_OFFSET + STD_SPAN, and not clamped between. With Table P1: minVal up to raw 51, maxVal from raw
973. -/
def Obligations.GenericChannelMapping : Prop :=
  ∀ (c : Config) (r : Raw10), configWf c = true →
    physStd c r = min (max (c.minVal + (c.maxVal - c.minVal) * ((r.val : PhysNum) - c.consts.stdOffset) / c.consts.stdSpan)
      c.minVal) c.maxVal ∧
    ((r.val : Int) ≤ c.consts.stdOffset → physStd c r = c.minVal) ∧
    (c.consts.stdOffset + c.consts.stdSpan ≤ (r.val : Int) → physStd c r = c.maxVal) ∧
    (c.consts.stdOffset ≤ (r.val : Int) → (r.val : Int) ≤ c.consts.stdOffset + c.consts.stdSpan →
      physStd c r = c.minVal + (c.maxVal - c.minVal) * ((r.val : PhysNum) - c.consts.stdOffset) / c.consts.stdSpan) ∧
    (c.consts = Constants.tableP1 →
      (r.val ≤ 51 → physStd c r = c.minVal) ∧ (973 ≤ r.val → physStd c r = c.maxVal) ∧
      (51 ≤ r.val → r.val ≤ 973 →
        physStd c r = c.minVal + (c.maxVal - c.minVal) * ((r.val : PhysNum) - 51) / 922))

/-- R77, R78: the master-line mapping, for every MASTER_OFFSET and MASTER_SPAN: the affine formula clamped to [0, 1], which
is 0 up to MASTER_OFFSET and 1 from MASTER_OFFSET + MASTER_SPAN; the potentiometer mapping `r / POT_DIVISOR`, which needs no
clamp while POT_DIVISOR is no less than the sample. With Table P1: `(r - 102)/819` and `r/1023`. -/
def Obligations.UnitMappings : Prop :=
  ∀ (c : Config) (r : Raw10), configWf c = true →
    unitMaster c r = min (max (((r.val : PhysNum) - c.consts.masterOffset) / c.consts.masterSpan) 0) 1 ∧
    ((r.val : Int) ≤ c.consts.masterOffset → unitMaster c r = 0) ∧
    (c.consts.masterOffset + c.consts.masterSpan ≤ (r.val : Int) → unitMaster c r = 1) ∧
    (c.consts.masterOffset ≤ (r.val : Int) → (r.val : Int) ≤ c.consts.masterOffset + c.consts.masterSpan →
      unitMaster c r = ((r.val : PhysNum) - c.consts.masterOffset) / c.consts.masterSpan) ∧
    unitPot c r = (r.val : PhysNum) / c.consts.potDivisor ∧ 0 ≤ unitPot c r ∧
    (r.val ≤ c.consts.potDivisor → unitPot c r ≤ 1) ∧
    (c.consts = Constants.tableP1 →
      (r.val ≤ 102 → unitMaster c r = 0) ∧ (921 ≤ r.val → unitMaster c r = 1) ∧
      (102 ≤ r.val → r.val ≤ 921 → unitMaster c r = ((r.val : PhysNum) - 102) / 819) ∧
      unitPot c r = (r.val : PhysNum) / 1023 ∧ 0 ≤ unitPot c r ∧ unitPot c r ≤ 1)

/-- R80 (with the predicate of R75): IS_CONNECTED takes exactly one sample, of the clamped channel's analog line, and answers
whether it is below JACK_THRESHOLD; nothing else changes. -/
def Obligations.IsConnectedTestsOneSample : Prop :=
  ∀ (ch : Int) (s : State), configWf s.cfg = true →
    (-2048 ≤ ch → ch ≤ 2047 → decode (0x4000#16 ||| (BitVec.ofInt 12 ch).setWidth 16) = .command (.isConnected ch)) ∧
    exec (.isConnected ch) s = .next { s with
      trace := s.trace ++ [.sample s.cfg.pins.ain[clampCh s.cfg.consts ch] s.nextRaw]
      analogIn := s.analogIn.tail, draws := s.draws + 1, seq := .idle
      answer := some ⟨.ok, .bool (decide (s.nextRaw.val < s.cfg.consts.jackThreshold))⟩ }

/-- R81 (with the sampling of R79): READ_ANALOG answers minVal when the sample is at or above JACK_THRESHOLD, else the
mapping of that sample or, with ADC_RESAMPLE, of a second one; it caches the answer for the clamped channel on every
path, and nothing else changes. -/
def Obligations.ReadAnalogMapsAndCaches : Prop :=
  ∀ (ch : Int) (s s₁ : State), configWf s.cfg = true →
    s₁ = { s with analogIn := s.analogIn.tail, draws := s.draws + 1
                  trace := s.trace ++ [.sample s.cfg.pins.ain[clampCh s.cfg.consts ch] s.nextRaw] } →
    (-2048 ≤ ch → ch ≤ 2047 → decode (0x5000#16 ||| (BitVec.ofInt 12 ch).setWidth 16) = .command (.readAnalog ch)) ∧
    (s.cfg.consts.jackThreshold ≤ s.nextRaw.val →
      exec (.readAnalog ch) s = .next { s₁ with
        insCache := s.insCache.set (clampCh s.cfg.consts ch).val (some s.cfg.minVal) (clampCh s.cfg.consts ch).isLt
        seq := .idle, answer := some ⟨.ok, .phys s.cfg.minVal⟩ }) ∧
    (s.nextRaw.val < s.cfg.consts.jackThreshold → s.cfg.adcResample = false →
      exec (.readAnalog ch) s = .next { s₁ with
        insCache := s.insCache.set (clampCh s.cfg.consts ch).val (some (physStd s.cfg s.nextRaw))
          (clampCh s.cfg.consts ch).isLt
        seq := .idle, answer := some ⟨.ok, .phys (physStd s.cfg s.nextRaw)⟩ }) ∧
    (s.nextRaw.val < s.cfg.consts.jackThreshold → s.cfg.adcResample = true →
      exec (.readAnalog ch) s = .next { s₁ with
        analogIn := s₁.analogIn.tail, draws := s₁.draws + 1
        trace := s₁.trace ++ [.sample s.cfg.pins.ain[clampCh s.cfg.consts ch] s₁.nextRaw]
        insCache := s.insCache.set (clampCh s.cfg.consts ch).val (some (physStd s.cfg s₁.nextRaw))
          (clampCh s.cfg.consts ch).isLt
        seq := .idle, answer := some ⟨.ok, .phys (physStd s.cfg s₁.nextRaw)⟩ })

/-- R82: READ_DIGITAL samples the analog line; at or above JACK_THRESHOLD it answers 0 and reads no digital line, else it
reads the channel's digital line and answers its raw level; nothing else changes. -/
def Obligations.ReadDigitalReadsOnlyWhenConnected : Prop :=
  ∀ (ch : Int) (s s₁ : State), configWf s.cfg = true →
    s₁ = { s with analogIn := s.analogIn.tail, draws := s.draws + 1
                  trace := s.trace ++ [.sample s.cfg.pins.ain[clampCh s.cfg.consts ch] s.nextRaw] } →
    (-2048 ≤ ch → ch ≤ 2047 → decode (0x6000#16 ||| (BitVec.ofInt 12 ch).setWidth 16) = .command (.readDigital ch)) ∧
    (s.cfg.consts.jackThreshold ≤ s.nextRaw.val →
      exec (.readDigital ch) s = .next { s₁ with seq := .idle, answer := some ⟨.ok, .bit low⟩ }) ∧
    (s.nextRaw.val < s.cfg.consts.jackThreshold →
      exec (.readDigital ch) s = .next { s₁ with
        digitalIn := s₁.digitalIn.tail, draws := s₁.draws + 1
        trace := s₁.trace ++ [.read s.cfg.pins.din[clampCh s.cfg.consts ch] s₁.nextBit]
        seq := .idle, answer := some ⟨.ok, .bit s₁.nextBit⟩ })

/-- R83: READ_POT takes exactly one sample, of the potentiometer line, with no connection check; it caches and answers
`r / POT_DIVISOR`; nothing else changes. -/
def Obligations.ReadPotScalesAndCaches : Prop :=
  ∀ s : State, configWf s.cfg = true →
    decode 0x7000 = .command .readPot ∧
    exec .readPot s = .next { s with
      trace := s.trace ++ [.sample s.cfg.pins.pot s.nextRaw]
      analogIn := s.analogIn.tail, draws := s.draws + 1, seq := .idle
      potCache := some ((s.nextRaw.val : PhysNum) / (s.cfg.consts.potDivisor : PhysNum))
      answer := some ⟨.ok, .unit ((s.nextRaw.val : PhysNum) / (s.cfg.consts.potDivisor : PhysNum))⟩ }

/-- R84 (with the predicate of R75): IS_MASTER_CONNECTED takes exactly one sample, of the master analog line, and answers
whether it is below MASTER_THRESHOLD; nothing else changes. -/
def Obligations.IsMasterConnectedTestsOneSample : Prop :=
  ∀ s : State, configWf s.cfg = true →
    decode 0x8000 = .command .isMasterConnected ∧
    exec .isMasterConnected s = .next { s with
      trace := s.trace ++ [.sample s.cfg.pins.masterAnalog s.nextRaw]
      analogIn := s.analogIn.tail, draws := s.draws + 1, seq := .idle
      answer := some ⟨.ok, .bool (decide (s.nextRaw.val < s.cfg.consts.masterThreshold))⟩ }

/-- R85 (with the sampling of R79): READ_MASTER answers 0 when the sample is at or above MASTER_THRESHOLD, else the unit
mapping of that sample or, with ADC_RESAMPLE, of a second one; no cache is written and nothing else changes. -/
def Obligations.ReadMasterMapsWithoutCache : Prop :=
  ∀ s s₁ : State, configWf s.cfg = true →
    s₁ = { s with analogIn := s.analogIn.tail, draws := s.draws + 1
                  trace := s.trace ++ [.sample s.cfg.pins.masterAnalog s.nextRaw] } →
    decode 0x9000 = .command .readMaster ∧
    (s.cfg.consts.masterThreshold ≤ s.nextRaw.val →
      exec .readMaster s = .next { s₁ with seq := .idle, answer := some ⟨.ok, .unit 0⟩ }) ∧
    (s.nextRaw.val < s.cfg.consts.masterThreshold → s.cfg.adcResample = false →
      exec .readMaster s = .next { s₁ with seq := .idle, answer := some ⟨.ok, .unit (unitMaster s.cfg s.nextRaw)⟩ }) ∧
    (s.nextRaw.val < s.cfg.consts.masterThreshold → s.cfg.adcResample = true →
      exec .readMaster s = .next { s₁ with
        analogIn := s₁.analogIn.tail, draws := s₁.draws + 1
        trace := s₁.trace ++ [.sample s.cfg.pins.masterAnalog s₁.nextRaw]
        seq := .idle, answer := some ⟨.ok, .unit (unitMaster s.cfg s₁.nextRaw)⟩ })

/-- R86: READ_DIP makes exactly one read, of the clamped DIP line, and answers whether its raw level is 0; nothing else
changes. -/
def Obligations.ReadDipIsActiveLow : Prop :=
  ∀ (idx : Int) (s : State), configWf s.cfg = true →
    (-2048 ≤ idx → idx ≤ 2047 → decode (0xA000#16 ||| (BitVec.ofInt 12 idx).setWidth 16) = .command (.readDip idx)) ∧
    exec (.readDip idx) s = .next { s with
      trace := s.trace ++ [.read s.cfg.pins.dip[clampDip s.cfg.consts idx] s.nextBit]
      digitalIn := s.digitalIn.tail, draws := s.draws + 1, seq := .idle
      answer := some ⟨.ok, .bool (decide (s.nextBit = low))⟩ }

/-- R87: READ_SWITCH makes exactly one read, of the push switch's line, and answers whether its raw level is 0; nothing
else changes. -/
def Obligations.ReadSwitchIsActiveLow : Prop :=
  ∀ s : State, configWf s.cfg = true →
    decode 0xB000 = .command .readSwitch ∧
    exec .readSwitch s = .next { s with
      trace := s.trace ++ [.read s.cfg.pins.sw s.nextBit]
      digitalIn := s.digitalIn.tail, draws := s.draws + 1, seq := .idle
      answer := some ⟨.ok, .bool (decide (s.nextBit = low))⟩ }

/-- R88: READ_MASTER_SWITCH makes exactly one read, of the master switch's line, with no connection check, and answers
whether its raw level is 0; nothing else changes. -/
def Obligations.ReadMasterSwitchIsActiveLow : Prop :=
  ∀ s : State, configWf s.cfg = true →
    decode 0xC000 = .command .readMasterSwitch ∧
    exec .readMasterSwitch s = .next { s with
      trace := s.trace ++ [.read s.cfg.pins.masterSw s.nextBit]
      digitalIn := s.digitalIn.tail, draws := s.draws + 1, seq := .idle
      answer := some ⟨.ok, .bool (decide (s.nextBit = low))⟩ }

/-- 42_input_conditioner.md section 5 (R89 items 1 and 2): with POT_DIVISOR no less than RAW_MAX (as in Table P1; a smaller
one is log entry 16's), every value READ_ANALOG answers lies in the Range, and every value READ_POT or READ_MASTER answers
lies in [0, 1]. -/
def Obligations.ReadResultsInRange : Prop :=
  ∀ s t : State, s.cfg.consts.rawMax ≤ s.cfg.consts.potDivisor →
    (∀ ch, exec (.readAnalog ch) s = .next t →
      ∃ q, t.answer = some ⟨.ok, .phys q⟩ ∧ s.cfg.minVal ≤ q ∧ q ≤ s.cfg.maxVal) ∧
    (exec .readPot s = .next t → ∃ q, t.answer = some ⟨.ok, .unit q⟩ ∧ 0 ≤ q ∧ q ≤ 1) ∧
    (exec .readMaster s = .next t → ∃ q, t.answer = some ⟨.ok, .unit q⟩ ∧ 0 ≤ q ∧ q ≤ 1)

/-- 42_input_conditioner.md section 1 (R76, R77, R78): the three input mappings are non-decreasing in the raw sample, on all
of 0..1023. -/
def Obligations.InputMappingsMonotone : Prop :=
  ∀ (c : Config) (r₁ r₂ : Raw10), configWf c = true → r₁ ≤ r₂ →
    physStd c r₁ ≤ physStd c r₂ ∧ unitMaster c r₁ ≤ unitMaster c r₂ ∧ unitPot c r₁ ≤ unitPot c r₂

/-- 42_input_conditioner.md section 5 (R89 item 3): when the sample a channel gives is at or above JACK_THRESHOLD,
IS_CONNECTED answers false, READ_ANALOG minVal and READ_DIGITAL 0. -/
def Obligations.DisconnectedChannelAgreement : Prop :=
  ∀ (ch : Int) (s : State), configWf s.cfg = true → s.cfg.consts.jackThreshold ≤ s.nextRaw.val →
    (∃ t, exec (.isConnected ch) s = .next t ∧ t.answer = some ⟨.ok, .bool false⟩) ∧
    (∃ t, exec (.readAnalog ch) s = .next t ∧ t.answer = some ⟨.ok, .phys s.cfg.minVal⟩) ∧
    (∃ t, exec (.readDigital ch) s = .next t ∧ t.answer = some ⟨.ok, .bit low⟩)

/-- 42_input_conditioner.md section 5 (R89 item 4) and, for READ_DIP, sections 1 and 4 (R74, decision D14, and R86): an index
at or below 0 does what index 0 does, and one at or above the last index (5 and 1 in Table P1) what the last does, in
events, state and result. -/
def Obligations.IndexAliasing : Prop :=
  ∀ (n lastCh lastDip : Int) (s : State), lastCh = (s.cfg.consts.numChannels : Int) - 1 →
    lastDip = (s.cfg.consts.numDips : Int) - 1 →
    (n ≤ 0 → exec (.isConnected n) s = exec (.isConnected 0) s ∧ exec (.readAnalog n) s = exec (.readAnalog 0) s ∧
      exec (.readDigital n) s = exec (.readDigital 0) s ∧ exec (.readDip n) s = exec (.readDip 0) s) ∧
    (lastCh ≤ n → exec (.isConnected n) s = exec (.isConnected lastCh) s ∧
      exec (.readAnalog n) s = exec (.readAnalog lastCh) s ∧ exec (.readDigital n) s = exec (.readDigital lastCh) s) ∧
    (lastDip ≤ n → exec (.readDip n) s = exec (.readDip lastDip) s)

/-! ## Diagnostics -/

/-- R91: SNAPSHOT answers the three caches as they stand; it emits no event and changes no state. Right after reset every
entry is unset. -/
def Obligations.SnapshotReportsTheCaches : Prop :=
  (∀ s : State, configWf s.cfg = true →
    decode 0xD000 = .command .snapshot ∧
    exec .snapshot s = .next { s with
      seq := .idle
      answer := some ⟨.ok, .snap { out := s.outCache, ins := s.insCache, pot := s.potCache }⟩ }) ∧
  (∀ s : State, configWf s.cfg = true →
    exec .snapshot s.performReset = .next { s.performReset with
      answer := some ⟨.ok, .snap { out := none, ins := Vector.replicate 6 none, pot := none }⟩ })

/-- R92: a word that decodes to no command answers (ILLEGAL, none) and does nothing else; VALUE_IN is not taken over. -/
def Obligations.IllegalWordOnlyAnswers : Prop :=
  ∀ (s : State) (req : Request) (waiting : List Request) (why : IllegalWord),
    configWf s.cfg = true → s.boot = .running → s.seq = .idle → s.inbox = req :: waiting →
    decode req.word = .illegal why →
    step s = .next { s with inbox := waiting, answer := some ⟨.illegal, .none⟩ }

/-! ## The whole machine -/

/-- R25: which commands write which cache: WRITE_OUTPUT and WRITE_DIGITAL_OUTPUT outCache, READ_ANALOG the clamped channel's
entry of insCache, READ_POT potCache, and no other command any. -/
def Obligations.CachesWrittenOnlyByTheirCommands : Prop :=
  ∀ (i : Instr) (s t : State), exec i s = .next t →
    ((∀ b, i ≠ .writeDigitalOutput b) → i ≠ .writeOutput → t.outCache = s.outCache) ∧
    ((∀ ch, i ≠ .readAnalog ch) → t.insCache = s.insCache) ∧
    (∀ ch, i = .readAnalog ch → ∀ j : Fin 6, j ≠ clampCh s.cfg.consts ch → t.insCache[j] = s.insCache[j]) ∧
    (i ≠ .readPot → t.potCache = s.potCache) ∧
    (i = .writeOutput → t.outCache = some (clampToRange s.cfg s.valueIn)) ∧
    (∀ b, i = .writeDigitalOutput b → t.outCache = some (if b = high then s.cfg.maxVal else s.cfg.minVal)) ∧
    (∀ ch, i = .readAnalog ch → ∃ v, t.insCache[clampCh s.cfg.consts ch] = some v ∧ t.answer = some ⟨.ok, .phys v⟩) ∧
    (i = .readPot → ∃ p, t.potCache = some p ∧ t.answer = some ⟨.ok, .unit p⟩)

/-- 10_state.md section 3 and 20_memory.md sections 1 and 3 (R23, R29, R44): every event a command emits is on a line of its
own kind (Set on CLOCK and DATA alone, which are never read), and a command outside the Protocol Encoder's three drives
no line. -/
def Obligations.EventsStayOnTheirLines : Prop :=
  ∀ (i : Instr) (s t : State), exec i s = .next t →
    ∃ es, t.trace = s.trace ++ es ∧ (∀ e ∈ es, e.onOwnLine s.cfg.pins) ∧
      (drivesLines i = false → (∀ e ∈ es, e.isSet = false) ∧ t.clk = s.clk ∧ t.dat = s.dat)

/-- R54: VALUE_IN is read only by WRITE_OUTPUT: every other command does the same whatever VALUE_IN is. -/
def Obligations.ValueInReadOnlyByWriteOutput : Prop :=
  ∀ (i : Instr) (s : State) (v : PhysNum), i ≠ .writeOutput →
    exec i { s with valueIn := v } = mapNext (fun t => { t with valueIn := v }) (exec i s)

/-- 10_state.md section 3 (R23: "No command reads `clk` or `dat`"): a command does the same from other recorded levels, up
to the levels themselves. -/
def Obligations.DrivenLevelsAreNotReadBack : Prop :=
  ∀ (i : Instr) (s : State) (c d : Bit),
    exec i { s with clk := c, dat := d } =
      mapNext (fun t => if drivesLines i then t else { t with clk := c, dat := d }) (exec i s)

/-- 10_state.md section 4 (R25: "No command's result depends on a cache except SNAPSHOT"). -/
def Obligations.OnlySnapshotReadsTheCaches : Prop :=
  ∀ (i : Instr) (s t : State) (o p : Option PhysNum) (n : Vector (Option PhysNum) 6), i ≠ .snapshot →
    exec i s = .next t →
    ∃ u, exec i { s with outCache := o, insCache := n, potCache := p } = .next u ∧
      u.answer = t.answer ∧ u.trace = t.trace ∧ u.clk = t.clk ∧ u.dat = t.dat

/-- 10_state.md section 1 (R15: "No command writes it"), R28: no step, atomic or refined, changes the configuration. -/
def Obligations.ConfigurationNeverChanges : Prop :=
  ∀ s t : State, (step s = .next t → t.cfg = s.cfg) ∧ (tick s = .next t → t.cfg = s.cfg)

/-- 60_exceptions.md section 1 (R94 Table X1, R95) with 10_state.md section 2 (R19, R20, R21): a configuration is well-formed
exactly when minVal < maxVal, its PinMap meets R21, its constants keep R19's relations, and (the model's, log entry 7) the
constants that size the spec's types have values those types admit; on every other one every step and every command is
refused (that such an instance has a state at all is the model's, log entry 8). -/
def Obligations.IllFormedConfigurationRefused : Prop :=
  ∀ s : State,
    (configWf s.cfg = true ↔
      s.cfg.minVal < s.cfg.maxVal ∧
      (s.cfg.pins.clock ≠ s.cfg.pins.data ∧
        ∀ line, line ∈ s.cfg.pins.ain.toList ∨ line ∈ s.cfg.pins.din.toList ∨ line ∈ s.cfg.pins.dip.toList ∨
            line = s.cfg.pins.pot ∨ line = s.cfg.pins.masterAnalog ∨ line = s.cfg.pins.sw ∨ line = s.cfg.pins.masterSw →
          line ≠ s.cfg.pins.clock ∧ line ≠ s.cfg.pins.data) ∧
      (s.cfg.consts.codeMax = s.cfg.consts.codeMin + s.cfg.consts.codeSpan ∧ 0 < s.cfg.consts.codeSpan ∧
        0 < s.cfg.consts.stdSpan ∧ 0 < s.cfg.consts.masterSpan ∧ 0 < s.cfg.consts.potDivisor ∧
        (1 ≤ s.cfg.consts.jackThreshold ∧ s.cfg.consts.jackThreshold ≤ 1024) ∧
        1 ≤ s.cfg.consts.masterThreshold ∧ s.cfg.consts.masterThreshold ≤ 1024) ∧
      (s.cfg.consts.codeBits = 12 ∧ s.cfg.consts.codeMax < 4096 ∧ s.cfg.consts.frameSlots = 27 ∧
        (1 ≤ s.cfg.consts.numChannels ∧ s.cfg.consts.numChannels ≤ 6) ∧
        (1 ≤ s.cfg.consts.numDips ∧ s.cfg.consts.numDips ≤ 2) ∧ s.cfg.consts.rawMax ≤ 1023)) ∧
    (configWf s.cfg = false →
      step s = .refused .configRefused ∧ ∀ i : Instr, exec i s = .refused .configRefused)

/-- 43_diagnostic_and_control.md section 1 (R90): when the word presented first decodes to a command, the step is `exec` of
it, with the request taken from the inbox and its VALUE_IN on the input. -/
def Obligations.StepRunsTheDecodedCommand : Prop :=
  ∀ (s : State) (req : Request) (waiting : List Request) (i : Instr),
    configWf s.cfg = true → s.boot = .running → s.seq = .idle → s.inbox = req :: waiting →
    decode req.word = .command i →
    step s = exec i { s with inbox := waiting, valueIn := req.valueIn }

/-- The fetch interface (log entry 3, the model's own): a word presented first by `withFetchWord` is the very next command
performed, and nothing of it stays behind. -/
def Obligations.PresentedWordRunsNext : Prop :=
  ∀ (s : State) (w : Nat) (i : Instr), configWf s.cfg = true → decodeTableWord 16 w = some i →
    step (s.withFetchWord 16 w) = exec i { s with boot := .running, seq := .idle }

/-- 70_reset_and_hazards.md section 3 (R113): a command presented while the block is Busy, or while others wait, is held: it
waits behind them and changes nothing else of the step. -/
def Obligations.PresentedCommandsAreHeld : Prop :=
  ∀ (s : State) (req : Request), s.boot = .running → s.seq ≠ .idle ∨ s.inbox ≠ [] →
    step (s.present req) = mapNext (fun t => t.present req) (step s) ∧
    tick (s.present req) = mapNext (fun t => t.present req) (tick s)

/-- 43_diagnostic_and_control.md section 1 and 70_reset_and_hazards.md section 1 (R90: "never starts a command by itself",
R107: "waits for its first command"): with no command presented a step changes nothing. That waiting is a step is the
model's choice (log entry 10). -/
def Obligations.IdleBlockWaits : Prop :=
  ∀ s : State, configWf s.cfg = true → s.boot = .running → s.seq = .idle → s.inbox = [] → step s = .next s

/-- R106: Reset clears the sequencer and the caches, then drives CLOCK and DATA high in that order, requests no delay, and
leaves the configuration as it was. -/
def Obligations.ResetClearsAndDrivesHigh : Prop :=
  ∀ s : State, s.performReset = { s with
    boot := .running, seq := .idle, outCache := none, insCache := Vector.replicate 6 none, potCache := none
    clk := high, dat := high
    trace := s.trace ++ [.set s.cfg.pins.clock high, .set s.cfg.pins.data high] }

/-- 70_reset_and_hazards.md sections 1 and 2 (R106 "Reset happens once", R108): an instance that awaits its reset performs it
in its first step, is stuck if a command is presented before, and no step leads back to before the reset. That the reset
is a step of the model, and the stuck state a fault, is the model's choice (log entry 9). -/
def Obligations.ResetComesFirstAndOnce : Prop :=
  (∀ s : State, configWf s.cfg = true → s.boot = .awaitingReset → s.inbox = [] → step s = .next s.performReset) ∧
  (∀ s : State, configWf s.cfg = true → s.boot = .awaitingReset → s.inbox ≠ [] →
    step s = .fault .commandBeforeReset) ∧
  (∀ s t : State, step s = .next t → t.boot = .running)

/-- R28: the values after reset. -/
def Obligations.ResetValues : Prop :=
  State.reset.clk = high ∧ State.reset.dat = high ∧ State.reset.outCache = none ∧
    (∀ i : Fin 6, State.reset.insCache[i] = none) ∧ State.reset.potCache = none ∧ State.reset.seq = .idle ∧
    ∀ s : State, s.performReset.cfg = s.cfg

/-- 70_reset_and_hazards.md section 3 (R111) with R19, R24 and R26: the conditions of a command boundary hold right after
reset. -/
def Obligations.ResetIsACommandBoundary : Prop := State.reset.AtBoundary

/-- 70_reset_and_hazards.md section 3 (R111), 60_exceptions.md section 1 (R93): from every command boundary a step answers a
next state (no fault, no refusal), which is a command boundary again: bus idle, sequencer Idle, caches in range. -/
def Obligations.StepKeepsTheBoundary : Prop :=
  ∀ s : State, s.AtBoundary → ∃ t, step s = .next t ∧ t.AtBoundary

/-- 20_memory.md section 3 and 43_diagnostic_and_control.md section 1 (R40, R90, R113): from a command boundary, the command
presented `k`-th is served by step `k` (counting from 0): that step starts at a command boundary `t` where the ones before
it are gone, is `exec` of the command its word decodes to, with its VALUE_IN (or, for an illegal word, only the ILLEGAL
answer), and ends at a command boundary with the later ones waiting. -/
def Obligations.WaitingCommandsAreServedInOrder : Prop :=
  ∀ (s : State) (k : Nat) (req : Request), s.AtBoundary → s.inbox[k]? = some req →
    ∃ t u : State,
      Sys2Proof.core.run k s = .next t ∧ t.inbox = s.inbox.drop k ∧ t.AtBoundary ∧
      Sys2Proof.core.run (k + 1) s = .next u ∧ u.inbox = s.inbox.drop (k + 1) ∧ u.AtBoundary ∧
      match decode req.word with
      | .command i => exec i { t with inbox := s.inbox.drop (k + 1), valueIn := req.valueIn } = .next u
      | .illegal _ => u = { t with inbox := s.inbox.drop (k + 1), answer := some ⟨.illegal, .none⟩ }

/-- 10_state.md section 5 (R26), 92_eei_decisions.md D1: the refined view agrees with the atomic one. If the atomic step
performs a command of `n` events, then `n + 1` refined steps reach the same state; after `k + 1` of them, `k < n`, the
sequencer is Busy(cmd, k), `k` of the events have been issued, and the caches, the answer and the waiting commands are
as they were. That a cache write and the answer come with the last event, and not earlier, is the model's choice (log entry
11): the spec makes no claim about the caches in mid-command (R71). -/
def Obligations.RefinedViewAgreesWithAtomicStep : Prop :=
  ∀ (s t : State) (req : Request) (waiting : List Request) (i : Instr),
    configWf s.cfg = true → s.boot = .running → s.seq = .idle → s.inbox = req :: waiting →
    decode req.word = .command i → step s = .next t →
    ∃ n, t.trace.length = s.trace.length + n ∧ ticks (n + 1) s = .next t ∧
      ∀ k, k < n → ∃ u, ticks (k + 1) s = .next u ∧ u.seq = .busy i k ∧
        u.trace = t.trace.take (s.trace.length + k) ∧ u.inbox = waiting ∧ u.answer = s.answer ∧
        u.outCache = s.outCache ∧ u.insCache = s.insCache ∧ u.potCache = s.potCache
end

