-- ==== Sys2Proof/Laws/Decode.lean ====
section
/-! SUPPORT. The fields of a command word, and which words a row of Table E1 selects. -/

namespace Sys2Proof

@[simp] theorem opField_wordOf (op : BitVec 4) (opd : BitVec 12) : opField (wordOf op opd) = op := by
  apply BitVec.eq_of_toNat_eq
  simp only [opField, wordOf, BitVec.extractLsb'_toNat, BitVec.toNat_append]
  have := opd.isLt
  rw [← Nat.shiftLeft_add_eq_or_of_lt this, Nat.shiftRight_eq_div_pow, Nat.shiftLeft_eq]
  have := op.isLt
  omega

@[simp] theorem opdField_wordOf (op : BitVec 4) (opd : BitVec 12) : opdField (wordOf op opd) = opd := by
  apply BitVec.eq_of_toNat_eq
  simp only [opdField, wordOf, BitVec.extractLsb'_toNat, BitVec.toNat_append]
  have := opd.isLt
  rw [← Nat.shiftLeft_add_eq_or_of_lt this, Nat.shiftRight_eq_div_pow, Nat.shiftLeft_eq]
  omega

/-- R51: a word is its two fields. -/
theorem wordOf_fields (w : CmdWord) : wordOf (opField w) (opdField w) = w := by
  apply BitVec.eq_of_toNat_eq
  simp only [opField, opdField, wordOf, BitVec.extractLsb'_toNat, BitVec.toNat_append]
  have := w.isLt
  rw [← Nat.shiftLeft_add_eq_or_of_lt (by omega), Nat.shiftRight_eq_div_pow, Nat.shiftRight_eq_div_pow,
    Nat.shiftLeft_eq]
  omega

/-- R53: an index operand survives its field. -/
theorem sext12_idx12Field {n : Int} (h : idx12Wf n = true) : sext12 (idx12Field n) = n := by
  simp only [idx12Wf, Bool.and_eq_true, decide_eq_true_eq] at h
  simp only [sext12, idx12Field, BitVec.toInt_ofInt, Int.bmod]
  omega

/-- R52: a mask that keeps the opcode alone selects every operand field. -/
theorem selects_opcode (m : String) (op : BitVec 4) (opd : BitVec 12) :
    OpcodeRow.selects ⟨m, wordOf op 0, 0xF000⟩ (wordOf op opd) = true := by
  have h : (0xF000 : CmdWord) = 0xF#4 ++ 0#12 := by decide
  have h15 : op &&& 0xF#4 = op := BitVec.and_allOnes (x := op)
  simp only [OpcodeRow.selects, wordOf, beq_iff_eq]
  rw [h, BitVec.and_append, h15, BitVec.and_zero]
  rfl

end Sys2Proof
end

