-- ==== Sys2Proof/Laws/State.lean ====
section
/-! SUPPORT. The small lemmas of the state's updates: one per field per update, so that no later proof unfolds a record
update. -/

namespace Sys2Proof.Machine

open Sys2Proof

/-! `State.emit` -/

@[simp] theorem State.emit_cfg (s : State) (e : Event) : (s.emit e).cfg = s.cfg := rfl
@[simp] theorem State.emit_boot (s : State) (e : Event) : (s.emit e).boot = s.boot := rfl
@[simp] theorem State.emit_clk (s : State) (e : Event) : (s.emit e).clk = s.clk := rfl
@[simp] theorem State.emit_dat (s : State) (e : Event) : (s.emit e).dat = s.dat := rfl
@[simp] theorem State.emit_outCache (s : State) (e : Event) : (s.emit e).outCache = s.outCache := rfl
@[simp] theorem State.emit_insCache (s : State) (e : Event) : (s.emit e).insCache = s.insCache := rfl
@[simp] theorem State.emit_potCache (s : State) (e : Event) : (s.emit e).potCache = s.potCache := rfl
@[simp] theorem State.emit_seq (s : State) (e : Event) : (s.emit e).seq = s.seq := rfl
@[simp] theorem State.emit_inbox (s : State) (e : Event) : (s.emit e).inbox = s.inbox := rfl
@[simp] theorem State.emit_valueIn (s : State) (e : Event) : (s.emit e).valueIn = s.valueIn := rfl
@[simp] theorem State.emit_answer (s : State) (e : Event) : (s.emit e).answer = s.answer := rfl
@[simp] theorem State.emit_trace (s : State) (e : Event) : (s.emit e).trace = s.trace ++ [e] := rfl
@[simp] theorem State.emit_analogIn (s : State) (e : Event) : (s.emit e).analogIn = s.analogIn := rfl
@[simp] theorem State.emit_digitalIn (s : State) (e : Event) : (s.emit e).digitalIn = s.digitalIn := rfl
@[simp] theorem State.emit_draws (s : State) (e : Event) : (s.emit e).draws = s.draws := rfl

/-! `State.drive` -/

@[simp] theorem State.drive_cfg (s : State) (line : LineId) (v : Bit) : (s.drive line v).cfg = s.cfg := rfl
@[simp] theorem State.drive_boot (s : State) (line : LineId) (v : Bit) : (s.drive line v).boot = s.boot := rfl
@[simp] theorem State.drive_clk (s : State) (line : LineId) (v : Bit) : (s.drive line v).clk = if line = s.cfg.pins.clock then v else s.clk := rfl
@[simp] theorem State.drive_dat (s : State) (line : LineId) (v : Bit) : (s.drive line v).dat = if line = s.cfg.pins.data then v else s.dat := rfl
@[simp] theorem State.drive_outCache (s : State) (line : LineId) (v : Bit) : (s.drive line v).outCache = s.outCache := rfl
@[simp] theorem State.drive_insCache (s : State) (line : LineId) (v : Bit) : (s.drive line v).insCache = s.insCache := rfl
@[simp] theorem State.drive_potCache (s : State) (line : LineId) (v : Bit) : (s.drive line v).potCache = s.potCache := rfl
@[simp] theorem State.drive_seq (s : State) (line : LineId) (v : Bit) : (s.drive line v).seq = s.seq := rfl
@[simp] theorem State.drive_inbox (s : State) (line : LineId) (v : Bit) : (s.drive line v).inbox = s.inbox := rfl
@[simp] theorem State.drive_valueIn (s : State) (line : LineId) (v : Bit) : (s.drive line v).valueIn = s.valueIn := rfl
@[simp] theorem State.drive_answer (s : State) (line : LineId) (v : Bit) : (s.drive line v).answer = s.answer := rfl
@[simp] theorem State.drive_trace (s : State) (line : LineId) (v : Bit) : (s.drive line v).trace = s.trace ++ [.set line v] := rfl
@[simp] theorem State.drive_analogIn (s : State) (line : LineId) (v : Bit) : (s.drive line v).analogIn = s.analogIn := rfl
@[simp] theorem State.drive_digitalIn (s : State) (line : LineId) (v : Bit) : (s.drive line v).digitalIn = s.digitalIn := rfl
@[simp] theorem State.drive_draws (s : State) (line : LineId) (v : Bit) : (s.drive line v).draws = s.draws := rfl

/-! `State.wait` -/

@[simp] theorem State.wait_cfg (s : State) (n : Nat) : (s.wait n).cfg = s.cfg := rfl
@[simp] theorem State.wait_boot (s : State) (n : Nat) : (s.wait n).boot = s.boot := rfl
@[simp] theorem State.wait_clk (s : State) (n : Nat) : (s.wait n).clk = s.clk := rfl
@[simp] theorem State.wait_dat (s : State) (n : Nat) : (s.wait n).dat = s.dat := rfl
@[simp] theorem State.wait_outCache (s : State) (n : Nat) : (s.wait n).outCache = s.outCache := rfl
@[simp] theorem State.wait_insCache (s : State) (n : Nat) : (s.wait n).insCache = s.insCache := rfl
@[simp] theorem State.wait_potCache (s : State) (n : Nat) : (s.wait n).potCache = s.potCache := rfl
@[simp] theorem State.wait_seq (s : State) (n : Nat) : (s.wait n).seq = s.seq := rfl
@[simp] theorem State.wait_inbox (s : State) (n : Nat) : (s.wait n).inbox = s.inbox := rfl
@[simp] theorem State.wait_valueIn (s : State) (n : Nat) : (s.wait n).valueIn = s.valueIn := rfl
@[simp] theorem State.wait_answer (s : State) (n : Nat) : (s.wait n).answer = s.answer := rfl
@[simp] theorem State.wait_trace (s : State) (n : Nat) : (s.wait n).trace = s.trace ++ [.delay n] := rfl
@[simp] theorem State.wait_analogIn (s : State) (n : Nat) : (s.wait n).analogIn = s.analogIn := rfl
@[simp] theorem State.wait_digitalIn (s : State) (n : Nat) : (s.wait n).digitalIn = s.digitalIn := rfl
@[simp] theorem State.wait_draws (s : State) (n : Nat) : (s.wait n).draws = s.draws := rfl

/-! `State.sampled` -/

@[simp] theorem State.sampled_cfg (s : State) (line : LineId) : (s.sampled line).cfg = s.cfg := rfl
@[simp] theorem State.sampled_boot (s : State) (line : LineId) : (s.sampled line).boot = s.boot := rfl
@[simp] theorem State.sampled_clk (s : State) (line : LineId) : (s.sampled line).clk = s.clk := rfl
@[simp] theorem State.sampled_dat (s : State) (line : LineId) : (s.sampled line).dat = s.dat := rfl
@[simp] theorem State.sampled_outCache (s : State) (line : LineId) : (s.sampled line).outCache = s.outCache := rfl
@[simp] theorem State.sampled_insCache (s : State) (line : LineId) : (s.sampled line).insCache = s.insCache := rfl
@[simp] theorem State.sampled_potCache (s : State) (line : LineId) : (s.sampled line).potCache = s.potCache := rfl
@[simp] theorem State.sampled_seq (s : State) (line : LineId) : (s.sampled line).seq = s.seq := rfl
@[simp] theorem State.sampled_inbox (s : State) (line : LineId) : (s.sampled line).inbox = s.inbox := rfl
@[simp] theorem State.sampled_valueIn (s : State) (line : LineId) : (s.sampled line).valueIn = s.valueIn := rfl
@[simp] theorem State.sampled_answer (s : State) (line : LineId) : (s.sampled line).answer = s.answer := rfl
@[simp] theorem State.sampled_trace (s : State) (line : LineId) : (s.sampled line).trace = s.trace ++ [.sample line s.nextRaw] := rfl
@[simp] theorem State.sampled_analogIn (s : State) (line : LineId) : (s.sampled line).analogIn = s.analogIn.tail := rfl
@[simp] theorem State.sampled_digitalIn (s : State) (line : LineId) : (s.sampled line).digitalIn = s.digitalIn := rfl
@[simp] theorem State.sampled_draws (s : State) (line : LineId) : (s.sampled line).draws = s.draws + 1 := rfl

/-! `State.wasRead` -/

@[simp] theorem State.wasRead_cfg (s : State) (line : LineId) : (s.wasRead line).cfg = s.cfg := rfl
@[simp] theorem State.wasRead_boot (s : State) (line : LineId) : (s.wasRead line).boot = s.boot := rfl
@[simp] theorem State.wasRead_clk (s : State) (line : LineId) : (s.wasRead line).clk = s.clk := rfl
@[simp] theorem State.wasRead_dat (s : State) (line : LineId) : (s.wasRead line).dat = s.dat := rfl
@[simp] theorem State.wasRead_outCache (s : State) (line : LineId) : (s.wasRead line).outCache = s.outCache := rfl
@[simp] theorem State.wasRead_insCache (s : State) (line : LineId) : (s.wasRead line).insCache = s.insCache := rfl
@[simp] theorem State.wasRead_potCache (s : State) (line : LineId) : (s.wasRead line).potCache = s.potCache := rfl
@[simp] theorem State.wasRead_seq (s : State) (line : LineId) : (s.wasRead line).seq = s.seq := rfl
@[simp] theorem State.wasRead_inbox (s : State) (line : LineId) : (s.wasRead line).inbox = s.inbox := rfl
@[simp] theorem State.wasRead_valueIn (s : State) (line : LineId) : (s.wasRead line).valueIn = s.valueIn := rfl
@[simp] theorem State.wasRead_answer (s : State) (line : LineId) : (s.wasRead line).answer = s.answer := rfl
@[simp] theorem State.wasRead_trace (s : State) (line : LineId) : (s.wasRead line).trace = s.trace ++ [.read line s.nextBit] := rfl
@[simp] theorem State.wasRead_analogIn (s : State) (line : LineId) : (s.wasRead line).analogIn = s.analogIn := rfl
@[simp] theorem State.wasRead_digitalIn (s : State) (line : LineId) : (s.wasRead line).digitalIn = s.digitalIn.tail := rfl
@[simp] theorem State.wasRead_draws (s : State) (line : LineId) : (s.wasRead line).draws = s.draws + 1 := rfl

/-! `State.writeCache` -/

@[simp] theorem State.writeCache_cfg (s : State) (c : CacheWrite) : (s.writeCache c).cfg = s.cfg := by cases c <;> rfl
@[simp] theorem State.writeCache_boot (s : State) (c : CacheWrite) : (s.writeCache c).boot = s.boot := by cases c <;> rfl
@[simp] theorem State.writeCache_clk (s : State) (c : CacheWrite) : (s.writeCache c).clk = s.clk := by cases c <;> rfl
@[simp] theorem State.writeCache_dat (s : State) (c : CacheWrite) : (s.writeCache c).dat = s.dat := by cases c <;> rfl
@[simp] theorem State.writeCache_seq (s : State) (c : CacheWrite) : (s.writeCache c).seq = s.seq := by cases c <;> rfl
@[simp] theorem State.writeCache_inbox (s : State) (c : CacheWrite) : (s.writeCache c).inbox = s.inbox := by cases c <;> rfl
@[simp] theorem State.writeCache_valueIn (s : State) (c : CacheWrite) : (s.writeCache c).valueIn = s.valueIn := by cases c <;> rfl
@[simp] theorem State.writeCache_answer (s : State) (c : CacheWrite) : (s.writeCache c).answer = s.answer := by cases c <;> rfl
@[simp] theorem State.writeCache_trace (s : State) (c : CacheWrite) : (s.writeCache c).trace = s.trace := by cases c <;> rfl
@[simp] theorem State.writeCache_analogIn (s : State) (c : CacheWrite) : (s.writeCache c).analogIn = s.analogIn := by cases c <;> rfl
@[simp] theorem State.writeCache_digitalIn (s : State) (c : CacheWrite) : (s.writeCache c).digitalIn = s.digitalIn := by cases c <;> rfl
@[simp] theorem State.writeCache_draws (s : State) (c : CacheWrite) : (s.writeCache c).draws = s.draws := by cases c <;> rfl

@[simp] theorem State.writeCache_nothing_outCache (s : State) : (s.writeCache (.nothing)).outCache = s.outCache := rfl
@[simp] theorem State.writeCache_nothing_insCache (s : State) : (s.writeCache (.nothing)).insCache = s.insCache := rfl
@[simp] theorem State.writeCache_nothing_potCache (s : State) : (s.writeCache (.nothing)).potCache = s.potCache := rfl
@[simp] theorem State.writeCache_out_outCache (s : State) (u : PhysNum) : (s.writeCache (.out u)).outCache = some u := rfl
@[simp] theorem State.writeCache_out_insCache (s : State) (u : PhysNum) : (s.writeCache (.out u)).insCache = s.insCache := rfl
@[simp] theorem State.writeCache_out_potCache (s : State) (u : PhysNum) : (s.writeCache (.out u)).potCache = s.potCache := rfl
@[simp] theorem State.writeCache_ins_outCache (s : State) (i : Fin 6) (v : PhysNum) : (s.writeCache (.ins i v)).outCache = s.outCache := rfl
@[simp] theorem State.writeCache_ins_insCache (s : State) (i : Fin 6) (v : PhysNum) : (s.writeCache (.ins i v)).insCache = s.insCache.set i.val (some v) i.isLt := rfl
@[simp] theorem State.writeCache_ins_potCache (s : State) (i : Fin 6) (v : PhysNum) : (s.writeCache (.ins i v)).potCache = s.potCache := rfl
@[simp] theorem State.writeCache_pot_outCache (s : State) (p : PhysNum) : (s.writeCache (.pot p)).outCache = s.outCache := rfl
@[simp] theorem State.writeCache_pot_insCache (s : State) (p : PhysNum) : (s.writeCache (.pot p)).insCache = s.insCache := rfl
@[simp] theorem State.writeCache_pot_potCache (s : State) (p : PhysNum) : (s.writeCache (.pot p)).potCache = some p := rfl

/-! `State.finish` -/

@[simp] theorem State.finish_cfg (s : State) (c : CacheWrite) (r : Result) : (s.finish c r).cfg = s.cfg := by cases c <;> rfl
@[simp] theorem State.finish_boot (s : State) (c : CacheWrite) (r : Result) : (s.finish c r).boot = s.boot := by cases c <;> rfl
@[simp] theorem State.finish_clk (s : State) (c : CacheWrite) (r : Result) : (s.finish c r).clk = s.clk := by cases c <;> rfl
@[simp] theorem State.finish_dat (s : State) (c : CacheWrite) (r : Result) : (s.finish c r).dat = s.dat := by cases c <;> rfl
@[simp] theorem State.finish_outCache (s : State) (c : CacheWrite) (r : Result) : (s.finish c r).outCache = (s.writeCache c).outCache := by cases c <;> rfl
@[simp] theorem State.finish_insCache (s : State) (c : CacheWrite) (r : Result) : (s.finish c r).insCache = (s.writeCache c).insCache := by cases c <;> rfl
@[simp] theorem State.finish_potCache (s : State) (c : CacheWrite) (r : Result) : (s.finish c r).potCache = (s.writeCache c).potCache := by cases c <;> rfl
@[simp] theorem State.finish_seq (s : State) (c : CacheWrite) (r : Result) : (s.finish c r).seq = .idle := by cases c <;> rfl
@[simp] theorem State.finish_inbox (s : State) (c : CacheWrite) (r : Result) : (s.finish c r).inbox = s.inbox := by cases c <;> rfl
@[simp] theorem State.finish_valueIn (s : State) (c : CacheWrite) (r : Result) : (s.finish c r).valueIn = s.valueIn := by cases c <;> rfl
@[simp] theorem State.finish_answer (s : State) (c : CacheWrite) (r : Result) : (s.finish c r).answer = some ⟨.ok, r⟩ := by cases c <;> rfl
@[simp] theorem State.finish_trace (s : State) (c : CacheWrite) (r : Result) : (s.finish c r).trace = s.trace := by cases c <;> rfl
@[simp] theorem State.finish_analogIn (s : State) (c : CacheWrite) (r : Result) : (s.finish c r).analogIn = s.analogIn := by cases c <;> rfl
@[simp] theorem State.finish_digitalIn (s : State) (c : CacheWrite) (r : Result) : (s.finish c r).digitalIn = s.digitalIn := by cases c <;> rfl
@[simp] theorem State.finish_draws (s : State) (c : CacheWrite) (r : Result) : (s.finish c r).draws = s.draws := by cases c <;> rfl

/-! `State.answerIllegal` -/

@[simp] theorem State.answerIllegal_cfg (s : State) : s.answerIllegal.cfg = s.cfg := rfl
@[simp] theorem State.answerIllegal_boot (s : State) : s.answerIllegal.boot = s.boot := rfl
@[simp] theorem State.answerIllegal_clk (s : State) : s.answerIllegal.clk = s.clk := rfl
@[simp] theorem State.answerIllegal_dat (s : State) : s.answerIllegal.dat = s.dat := rfl
@[simp] theorem State.answerIllegal_outCache (s : State) : s.answerIllegal.outCache = s.outCache := rfl
@[simp] theorem State.answerIllegal_insCache (s : State) : s.answerIllegal.insCache = s.insCache := rfl
@[simp] theorem State.answerIllegal_potCache (s : State) : s.answerIllegal.potCache = s.potCache := rfl
@[simp] theorem State.answerIllegal_seq (s : State) : s.answerIllegal.seq = s.seq := rfl
@[simp] theorem State.answerIllegal_inbox (s : State) : s.answerIllegal.inbox = s.inbox := rfl
@[simp] theorem State.answerIllegal_valueIn (s : State) : s.answerIllegal.valueIn = s.valueIn := rfl
@[simp] theorem State.answerIllegal_answer (s : State) : s.answerIllegal.answer = some ⟨.illegal, .none⟩ := rfl
@[simp] theorem State.answerIllegal_trace (s : State) : s.answerIllegal.trace = s.trace := rfl
@[simp] theorem State.answerIllegal_analogIn (s : State) : s.answerIllegal.analogIn = s.analogIn := rfl
@[simp] theorem State.answerIllegal_digitalIn (s : State) : s.answerIllegal.digitalIn = s.digitalIn := rfl
@[simp] theorem State.answerIllegal_draws (s : State) : s.answerIllegal.draws = s.draws := rfl

/-! `State.present` -/

@[simp] theorem State.present_cfg (s : State) (req : Request) : (s.present req).cfg = s.cfg := rfl
@[simp] theorem State.present_boot (s : State) (req : Request) : (s.present req).boot = s.boot := rfl
@[simp] theorem State.present_clk (s : State) (req : Request) : (s.present req).clk = s.clk := rfl
@[simp] theorem State.present_dat (s : State) (req : Request) : (s.present req).dat = s.dat := rfl
@[simp] theorem State.present_outCache (s : State) (req : Request) : (s.present req).outCache = s.outCache := rfl
@[simp] theorem State.present_insCache (s : State) (req : Request) : (s.present req).insCache = s.insCache := rfl
@[simp] theorem State.present_potCache (s : State) (req : Request) : (s.present req).potCache = s.potCache := rfl
@[simp] theorem State.present_seq (s : State) (req : Request) : (s.present req).seq = s.seq := rfl
@[simp] theorem State.present_inbox (s : State) (req : Request) : (s.present req).inbox = s.inbox ++ [req] := rfl
@[simp] theorem State.present_valueIn (s : State) (req : Request) : (s.present req).valueIn = s.valueIn := rfl
@[simp] theorem State.present_answer (s : State) (req : Request) : (s.present req).answer = s.answer := rfl
@[simp] theorem State.present_trace (s : State) (req : Request) : (s.present req).trace = s.trace := rfl
@[simp] theorem State.present_analogIn (s : State) (req : Request) : (s.present req).analogIn = s.analogIn := rfl
@[simp] theorem State.present_digitalIn (s : State) (req : Request) : (s.present req).digitalIn = s.digitalIn := rfl
@[simp] theorem State.present_draws (s : State) (req : Request) : (s.present req).draws = s.draws := rfl

/-! `State.presentFirst` -/

@[simp] theorem State.presentFirst_cfg (s : State) (word : CmdWord) : (s.presentFirst word).cfg = s.cfg := rfl
@[simp] theorem State.presentFirst_boot (s : State) (word : CmdWord) : (s.presentFirst word).boot = .running := rfl
@[simp] theorem State.presentFirst_clk (s : State) (word : CmdWord) : (s.presentFirst word).clk = s.clk := rfl
@[simp] theorem State.presentFirst_dat (s : State) (word : CmdWord) : (s.presentFirst word).dat = s.dat := rfl
@[simp] theorem State.presentFirst_outCache (s : State) (word : CmdWord) : (s.presentFirst word).outCache = s.outCache := rfl
@[simp] theorem State.presentFirst_insCache (s : State) (word : CmdWord) : (s.presentFirst word).insCache = s.insCache := rfl
@[simp] theorem State.presentFirst_potCache (s : State) (word : CmdWord) : (s.presentFirst word).potCache = s.potCache := rfl
@[simp] theorem State.presentFirst_seq (s : State) (word : CmdWord) : (s.presentFirst word).seq = .idle := rfl
@[simp] theorem State.presentFirst_inbox (s : State) (word : CmdWord) : (s.presentFirst word).inbox = ⟨word, s.valueIn⟩ :: s.inbox := rfl
@[simp] theorem State.presentFirst_valueIn (s : State) (word : CmdWord) : (s.presentFirst word).valueIn = s.valueIn := rfl
@[simp] theorem State.presentFirst_answer (s : State) (word : CmdWord) : (s.presentFirst word).answer = s.answer := rfl
@[simp] theorem State.presentFirst_trace (s : State) (word : CmdWord) : (s.presentFirst word).trace = s.trace := rfl
@[simp] theorem State.presentFirst_analogIn (s : State) (word : CmdWord) : (s.presentFirst word).analogIn = s.analogIn := rfl
@[simp] theorem State.presentFirst_digitalIn (s : State) (word : CmdWord) : (s.presentFirst word).digitalIn = s.digitalIn := rfl
@[simp] theorem State.presentFirst_draws (s : State) (word : CmdWord) : (s.presentFirst word).draws = s.draws := rfl

/-! `State.performReset` -/

@[simp] theorem State.performReset_cfg (s : State) : s.performReset.cfg = s.cfg := by simp [State.performReset]
@[simp] theorem State.performReset_boot (s : State) : s.performReset.boot = .running := by simp [State.performReset]
@[simp] theorem State.performReset_outCache (s : State) : s.performReset.outCache = none := by simp [State.performReset]
@[simp] theorem State.performReset_insCache (s : State) : s.performReset.insCache = Vector.replicate 6 none := by simp [State.performReset]
@[simp] theorem State.performReset_potCache (s : State) : s.performReset.potCache = none := by simp [State.performReset]
@[simp] theorem State.performReset_seq (s : State) : s.performReset.seq = .idle := by simp [State.performReset]
@[simp] theorem State.performReset_inbox (s : State) : s.performReset.inbox = s.inbox := by simp [State.performReset]
@[simp] theorem State.performReset_valueIn (s : State) : s.performReset.valueIn = s.valueIn := by simp [State.performReset]
@[simp] theorem State.performReset_answer (s : State) : s.performReset.answer = s.answer := by simp [State.performReset]
@[simp] theorem State.performReset_trace (s : State) : s.performReset.trace = s.trace ++ [.set s.cfg.pins.clock high, .set s.cfg.pins.data high] := by simp [State.performReset]
@[simp] theorem State.performReset_analogIn (s : State) : s.performReset.analogIn = s.analogIn := by simp [State.performReset]
@[simp] theorem State.performReset_digitalIn (s : State) : s.performReset.digitalIn = s.digitalIn := by simp [State.performReset]
@[simp] theorem State.performReset_draws (s : State) : s.performReset.draws = s.draws := by simp [State.performReset]

@[simp] theorem State.performReset_clk (s : State) : s.performReset.clk = high := by simp [State.performReset]
@[simp] theorem State.performReset_dat (s : State) : s.performReset.dat = high := by simp [State.performReset]

end Sys2Proof.Machine
end

