-- ==== Sys2Proof/Laws/Operands.lean ====
section
/-! SUPPORT. What clamping and the well-formedness of a configuration say. -/

namespace Sys2Proof.Machine

open Sys2Proof

section Clamp

variable {α : Type} [LinearOrder α]

theorem le_clamp {x lo hi : α} (h : lo ≤ hi) : lo ≤ clamp x lo hi := le_min (le_max_right x lo) h

theorem clamp_le (x lo hi : α) : clamp x lo hi ≤ hi := min_le_right _ _

theorem clamp_of_mem {x lo hi : α} (hl : lo ≤ x) (hh : x ≤ hi) : clamp x lo hi = x := by
  rw [clamp, max_eq_left hl, min_eq_left hh]

theorem clamp_of_le {x lo hi : α} (h : lo ≤ hi) (hx : x ≤ lo) : clamp x lo hi = lo := by
  rw [clamp, max_eq_right hx, min_eq_left h]

theorem clamp_of_ge {x lo hi : α} (h : lo ≤ hi) (hx : hi ≤ x) : clamp x lo hi = hi := by
  rw [clamp, max_eq_left (h.trans hx), min_eq_right hx]

theorem clamp_mono {x y : α} (lo hi : α) (h : x ≤ y) : clamp x lo hi ≤ clamp y lo hi :=
  min_le_min (max_le_max h le_rfl) le_rfl

end Clamp

/-- R21 in words. -/
theorem pinsWf_iff (p : PinMap) :
    pinsWf p = true ↔ p.clock ≠ p.data ∧ p.clock ∉ p.inputs ∧ p.data ∉ p.inputs := by
  simp [pinsWf, and_assoc]

/-- R19 in words. -/
theorem configWf_iff (c : Config) :
    configWf c = true ↔ c.minVal < c.maxVal ∧ pinsWf c.pins = true ∧ relationsWf c.consts = true ∧
      shapesWf c.consts = true := by
  simp [configWf, and_assoc]

theorem configWf.range {c : Config} (h : configWf c = true) : c.minVal < c.maxVal := ((configWf_iff c).1 h).1

theorem configWf.clock_ne_data {c : Config} (h : configWf c = true) : c.pins.clock ≠ c.pins.data :=
  ((pinsWf_iff c.pins).1 ((configWf_iff c).1 h).2.1).1

/-- R19: the relations among the constants, as arithmetic. -/
theorem configWf.relations {c : Config} (h : configWf c = true) :
    c.consts.codeMax = c.consts.codeMin + c.consts.codeSpan ∧ 0 < c.consts.codeSpan ∧ 0 < c.consts.stdSpan ∧
      0 < c.consts.masterSpan ∧ 0 < c.consts.potDivisor ∧
      (1 ≤ c.consts.jackThreshold ∧ c.consts.jackThreshold ≤ 1024) ∧
      1 ≤ c.consts.masterThreshold ∧ c.consts.masterThreshold ≤ 1024 := by
  have h' := ((configWf_iff c).1 h).2.2.1
  simpa [relationsWf, and_assoc] using h'

/-- The bounds of the constants that size the spec's types, as arithmetic. -/
theorem configWf.shapes {c : Config} (h : configWf c = true) :
    c.consts.codeBits = 12 ∧ c.consts.codeMax < 2 ^ 12 ∧ c.consts.frameSlots = 27 ∧
      (1 ≤ c.consts.numChannels ∧ c.consts.numChannels ≤ 6) ∧ (1 ≤ c.consts.numDips ∧ c.consts.numDips ≤ 2) ∧
      c.consts.rawMax < 1024 := by
  have h' := ((configWf_iff c).1 h).2.2.2
  simp only [shapesWf, Bool.and_eq_true, decide_eq_true_eq] at h'
  obtain ⟨⟨⟨⟨⟨hb, hm⟩, hf⟩, hn⟩, hd⟩, hr⟩ := h'
  exact ⟨hb, hb ▸ hm, hf, hn, hd, hr⟩

/-- R74: an index is clamped to `0 .. count - 1`. -/
theorem clampIndex_eq (n : Int) {count : Nat} (h : 1 ≤ count) :
    (clampIndex n count : Int) = min (max n 0) ((count : Int) - 1) := by
  simp only [clampIndex, clamp]
  omega

/-- R74: the channel named, as an integer. -/
theorem clampCh_eq {c : Config} (h : configWf c = true) (n : Int) :
    ((clampCh c.consts n).val : Int) = min (max n 0) ((c.consts.numChannels : Int) - 1) := by
  obtain ⟨hl, hu⟩ := (configWf.shapes h).2.2.2.1
  have hi := clampIndex_eq n hl
  rw [← hi, clampCh, Fin.val_ofNat, Nat.mod_eq_of_lt (by omega)]

/-- R74: the DIP switch named, as an integer. -/
theorem clampDip_eq {c : Config} (h : configWf c = true) (n : Int) :
    ((clampDip c.consts n).val : Int) = min (max n 0) ((c.consts.numDips : Int) - 1) := by
  obtain ⟨hl, hu⟩ := (configWf.shapes h).2.2.2.2.1
  have hi := clampIndex_eq n hl
  rw [← hi, clampDip, Fin.val_ofNat, Nat.mod_eq_of_lt (by omega)]

/-- R7: a sample is at most RAW_MAX. -/
theorem sampleOf_le (k : Constants) (d : Raw10) : (sampleOf k d).val ≤ k.rawMax :=
  Nat.le_of_lt_succ (Nat.mod_lt _ (Nat.succ_pos _))

/-- R31: a draw in 0..RAW_MAX is the sample. -/
theorem sampleOf_of_le {k : Constants} {d : Raw10} (h : d.val ≤ k.rawMax) : sampleOf k d = d :=
  Fin.ext (Nat.mod_eq_of_lt (Nat.lt_succ_of_le h))

/-- R64, R65: on a well-formed configuration a Transmit sends the whole frame of the code as given. -/
theorem sentSlots_eq {c : Config} (h : configWf c = true) (code : Code12) : sentSlots c.consts code = frame code := by
  obtain ⟨hb, -, hf, -⟩ := configWf.shapes h
  have hs : sentCode c.consts code = code := by
    rw [sentCode, hb, Nat.mod_eq_of_lt code.isLt, BitVec.ofNat_toNat, BitVec.setWidth_eq]
  rw [sentSlots, hs, hf]
  rfl

end Sys2Proof.Machine
end

