-- ==== Sys2Proof/Laws/Ops.lean ====
section
/-! SUPPORT. What a command's run can do to the state, whatever the command: one lemma per shared operation. -/

namespace Sys2Proof.Machine

open Sys2Proof

@[simp] theorem Proc.run_done (w : CacheWrite) (r : Result) (s : State) : (Proc.done w r).run s = s.finish w r := rfl
@[simp] theorem Proc.run_drive (line : LineId) (v : Bit) (p : Proc) (s : State) :
    (Proc.drive line v p).run s = p.run (s.drive line v) := rfl
@[simp] theorem Proc.run_wait (n : Nat) (p : Proc) (s : State) : (Proc.wait n p).run s = p.run (s.wait n) := rfl
@[simp] theorem Proc.run_sample (line : LineId) (k : Raw10 → Proc) (s : State) :
    (Proc.sample line k).run s = (k s.nextRaw).run (s.sampled line) := rfl
@[simp] theorem Proc.run_read (line : LineId) (k : Bit → Proc) (s : State) :
    (Proc.read line k).run s = (k s.nextBit).run (s.wasRead line) := rfl

/-- R15, R26, R54: a run changes neither the configuration, the boot position, the inbox nor VALUE_IN, and leaves the
sequencer Idle. -/
theorem Proc.run_keeps (p : Proc) (s : State) :
    (p.run s).cfg = s.cfg ∧ (p.run s).boot = s.boot ∧ (p.run s).inbox = s.inbox ∧
      (p.run s).valueIn = s.valueIn ∧ (p.run s).seq = .idle := by
  induction p generalizing s with
  | done w r => simp
  | drive line v p ih => simpa using ih (s.drive line v)
  | wait n p ih => simpa using ih (s.wait n)
  | sample line k ih => simpa using ih s.nextRaw (s.sampled line)
  | read line k ih => simpa using ih s.nextBit (s.wasRead line)

/-- R13: a run only appends to the trace. -/
theorem Proc.run_trace (p : Proc) (s : State) : ∃ es, (p.run s).trace = s.trace ++ es := by
  induction p generalizing s with
  | done w r => exact ⟨[], by simp⟩
  | drive line v p ih => obtain ⟨es, h⟩ := ih (s.drive line v); exact ⟨_ :: es, by simp [h]; rfl⟩
  | wait n p ih => obtain ⟨es, h⟩ := ih (s.wait n); exact ⟨_ :: es, by simp [h]; rfl⟩
  | sample line k ih => obtain ⟨es, h⟩ := ih s.nextRaw (s.sampled line); exact ⟨_ :: es, by simp [h]; rfl⟩
  | read line k ih => obtain ⟨es, h⟩ := ih s.nextBit (s.wasRead line); exact ⟨_ :: es, by simp [h]; rfl⟩

/-- R58, R93: a run ends in an answer with status OK. -/
theorem Proc.run_answer (p : Proc) (s : State) : ∃ r, (p.run s).answer = some ⟨.ok, r⟩ := by
  induction p generalizing s with
  | done w r => exact ⟨r, by simp⟩
  | drive line v p ih => exact ih _
  | wait n p ih => exact ih _
  | sample line k ih => exact ih _ _
  | read line k ih => exact ih _ _

theorem perform_of_wf {s : State} (h : configWf s.cfg = true) (p : Proc) : perform p s = .next (p.run s) := by
  simp [perform, h]

theorem perform_of_not_wf {s : State} (h : ¬ configWf s.cfg = true) (p : Proc) :
    perform p s = .refused .configRefused := by
  simp [perform, h]

/-- All that `perform` can do. -/
theorem perform_eq_next {p : Proc} {s t : State} :
    perform p s = .next t ↔ configWf s.cfg = true ∧ t = p.run s := by
  by_cases h : configWf s.cfg = true
  · simp [perform_of_wf h, h, eq_comm]
  · simp [perform_of_not_wf h, h]

theorem mapNext_perform (f : State → State) (p : Proc) (s : State) :
    mapNext f (perform p s) = if configWf s.cfg = true then .next (f (p.run s)) else .refused .configRefused := by
  by_cases h : configWf s.cfg = true
  · simp [perform_of_wf h, h, mapNext]
  · simp [perform_of_not_wf h, h, mapNext]

end Sys2Proof.Machine
end

