-- ==== Sys2Proof/Laws/Encoder.lean ====
section
/-! SUPPORT. What the Transmit procedure and the connection-checked sample do to the state, said once. -/

namespace Sys2Proof.Machine

open Sys2Proof

/-- R62, R64: the slots of a list of bits, from clock rest: CLOCK at rest again, DATA at the last bit sent. -/
theorem run_slots (c : Config) (hc : c.pins.clock ≠ c.pins.data) (bits : List Bit) (rest : Proc) (s : State)
    (hs : s.cfg = c) (hl : s.clk = low) :
    (bits.foldr (writeBit c) rest).run s = rest.run { s with
      dat := bits.getLast?.getD s.dat, trace := s.trace ++ bits.flatMap (slotEvents c) } := by
  induction bits generalizing s with
  | nil => simp
  | cons b bits ih =>
    have hd : c.pins.data ≠ c.pins.clock := hc.symm
    simp only [List.foldr_cons, writeBit, Proc.run_drive, Proc.run_wait]
    rw [ih _ (by simpa using hs) (by simp [hs])]
    cases s
    simp only at hs hl
    subst hs hl
    cases bits <;> simp [State.drive, State.wait, State.emit, slotEvents, hc, hd, List.getLast?_cons]

/-- R64, R67 item 5: Transmit appends its events, leaves both lines at 1 and changes nothing else. -/
theorem run_transmit {s : State} (hw : configWf s.cfg = true) (code : Code12) (rest : Proc) :
    (transmit s.cfg code rest).run s = rest.run { s with
      clk := high, dat := high, trace := s.trace ++ transmitEvents s.cfg code } := by
  have hc := configWf.clock_ne_data hw
  have hd : s.cfg.pins.data ≠ s.cfg.pins.clock := hc.symm
  simp only [transmit, sentSlots_eq hw, startCondition, Proc.run_drive, Proc.run_wait]
  rw [run_slots s.cfg hc _ _ _ (by simp) (by simp)]
  simp [stopCondition, State.drive, State.wait, State.emit, transmitEvents, startEvents, stopEvents, hc, hd]

end Sys2Proof.Machine
end

