-- ==== Sys2Proof/Laws/Input.lean ====
section
/-! SUPPORT. What a connection-checked sample does, case by case (spec/42_input_conditioner.md R79). -/

namespace Sys2Proof.Machine

open Sys2Proof

theorem run_checkedSample_disconnected {c : Config} {threshold : Nat} {s : State} (h : threshold ≤ s.nextRaw.val)
    (line : LineId) (k : Bool → Raw10 → Proc) :
    (checkedSample c line threshold k).run s = (k false s.nextRaw).run (s.sampled line) := by
  have h' : ¬ s.nextRaw.val < threshold := by omega
  simp [checkedSample, belowThreshold, h']

theorem run_checkedSample_once {c : Config} {threshold : Nat} {s : State} (h : s.nextRaw.val < threshold)
    (hc : c.adcResample = false) (line : LineId) (k : Bool → Raw10 → Proc) :
    (checkedSample c line threshold k).run s = (k true s.nextRaw).run (s.sampled line) := by
  simp [checkedSample, belowThreshold, h, hc]

theorem run_checkedSample_twice {c : Config} {threshold : Nat} {s : State} (h : s.nextRaw.val < threshold)
    (hc : c.adcResample = true) (line : LineId) (k : Bool → Raw10 → Proc) :
    (checkedSample c line threshold k).run s =
      (k true (s.sampled line).nextRaw).run ((s.sampled line).sampled line) := by
  simp [checkedSample, belowThreshold, h, hc]

end Sys2Proof.Machine
end

