-- ==== Sys2Proof/Laws/PerInstr.lean ====
section
/-! SUPPORT. Statements about every command as syntax, one lemma per constructor: the word of a command selects the row of
Table E1 that bears its mnemonic (spec/30_encoding.md R52). -/

namespace Sys2Proof.Laws.EncodeRow

open Sys2Proof

/-- R52: a row of Table E1 with the command's mnemonic selects the command's word. -/
def Statement (i : Instr) : Prop := ∃ r ∈ tableE1, r.mnemonic = i.mnemonic ∧ r.selects (encode i) = true

theorem transmit (code : Code12) : Statement (.transmit code) := ⟨tableE1[0], by decide, rfl, selects_opcode _ 1 code⟩
theorem writeOutput : Statement .writeOutput := ⟨tableE1[1], by decide, rfl, by decide⟩
theorem writeDigitalOutput (b : Bit) : Statement (.writeDigitalOutput b) :=
  ⟨tableE1[2], by decide, rfl, by cases b <;> decide⟩
theorem isConnected (ch : Int) : Statement (.isConnected ch) := ⟨tableE1[3], by decide, rfl, selects_opcode _ 4 _⟩
theorem readAnalog (ch : Int) : Statement (.readAnalog ch) := ⟨tableE1[4], by decide, rfl, selects_opcode _ 5 _⟩
theorem readDigital (ch : Int) : Statement (.readDigital ch) := ⟨tableE1[5], by decide, rfl, selects_opcode _ 6 _⟩
theorem readPot : Statement .readPot := ⟨tableE1[6], by decide, rfl, by decide⟩
theorem isMasterConnected : Statement .isMasterConnected := ⟨tableE1[7], by decide, rfl, by decide⟩
theorem readMaster : Statement .readMaster := ⟨tableE1[8], by decide, rfl, by decide⟩
theorem readDip (idx : Int) : Statement (.readDip idx) := ⟨tableE1[9], by decide, rfl, selects_opcode _ 10 _⟩
theorem readSwitch : Statement .readSwitch := ⟨tableE1[10], by decide, rfl, by decide⟩
theorem readMasterSwitch : Statement .readMasterSwitch := ⟨tableE1[11], by decide, rfl, by decide⟩
theorem snapshot : Statement .snapshot := ⟨tableE1[12], by decide, rfl, by decide⟩

end Sys2Proof.Laws.EncodeRow
end

