-- ==== Sys2Proof/Laws/Sequencer.lean ====
section
/-! SUPPORT. What dispatch and one step can do. -/

namespace Sys2Proof.Machine

open Sys2Proof

/-- R90: every command's meaning performs its primitives. -/
theorem exec_eq_perform (i : Instr) (s : State) : exec i s = perform (procOf i s) s := by
  cases i <;> rfl

/-- All that `exec` can answer: the next state of the command's run, or the refusal of its configuration (R95). -/
theorem exec_eq_next {i : Instr} {s t : State} :
    exec i s = .next t ↔ configWf s.cfg = true ∧ t = (procOf i s).run s := by
  rw [exec_eq_perform, perform_eq_next]

/-- R15, R26, R54: what no command changes. -/
theorem exec_keeps {i : Instr} {s t : State} (h : exec i s = .next t) :
    t.cfg = s.cfg ∧ t.boot = s.boot ∧ t.inbox = s.inbox ∧ t.valueIn = s.valueIn ∧ t.seq = .idle := by
  obtain ⟨-, rfl⟩ := exec_eq_next.1 h
  exact Proc.run_keeps _ _

/-- R26: issuing a command's next event leaves the rest of its run to do. -/
theorem Proc.run_of_issue {p p' : Proc} {s s' : State} (h : p.issue s = some (p', s')) : p.run s = p'.run s' := by
  cases p <;> simp only [Proc.issue, reduceCtorEq, Option.some.injEq, Prod.mk.injEq] at h <;>
    obtain ⟨rfl, rfl⟩ := h <;> rfl

/-- R26: the command in progress, once `es` more events have been issued. -/
theorem Proc.after_append (p : Proc) (es fs : List Event) :
    p.after (es ++ fs) = (p.after es).bind fun q => q.after fs := by
  induction es generalizing p with
  | nil => cases p <;> rfl
  | cons e es ih => cases p <;> cases e <;> simp only [List.cons_append, Proc.after] <;> first | rfl | (split <;> simp [ih])

/-- R26: what issuing an event does: the trace grows by that event, which is the command's next one, and the
configuration, the ports, the caches and the sequencer are as they were. -/
theorem Proc.issue_spec {p p' : Proc} {s s' : State} (h : p.issue s = some (p', s')) :
    ∃ e, s'.trace = s.trace ++ [e] ∧ p.after [e] = some p' ∧ s'.cfg = s.cfg ∧ s'.boot = s.boot ∧ s'.seq = s.seq ∧
      s'.inbox = s.inbox ∧ s'.valueIn = s.valueIn ∧ s'.answer = s.answer ∧ s'.outCache = s.outCache ∧
      s'.insCache = s.insCache ∧ s'.potCache = s.potCache := by
  cases p <;> simp only [Proc.issue, reduceCtorEq, Option.some.injEq, Prod.mk.injEq] at h <;>
    obtain ⟨rfl, rfl⟩ := h <;> simp [Proc.after]

/-- R26: all that continuing a command can answer: its last event completes it, an earlier one advances the count, and a
position that is not its own is stuck. -/
theorem continueCommand_cases (i : Instr) (k : Nat) (s : State) :
    (∃ p s' w r, s.remaining i k = some p ∧ p.issue s = some (.done w r, s') ∧
      continueCommand i k s = .next (s'.finish w r)) ∨
    (∃ p p' s', s.remaining i k = some p ∧ p.issue s = some (p', s') ∧ (∀ w r, p' ≠ .done w r) ∧
      continueCommand i k s = .next { s' with seq := .busy i (k + 1) }) ∨
    continueCommand i k s = .fault .sequencerOutOfStep := by
  simp only [continueCommand]
  cases hr : s.remaining i k with
  | none => simp
  | some p =>
    cases hi : p.issue s with
    | none => simp [hi]
    | some q =>
      obtain ⟨p', s'⟩ := q
      cases p' with
      | done w r => exact .inl ⟨p, s', w, r, rfl, hi, by simp [hi]⟩
      | drive _ _ _ => exact .inr (.inl ⟨p, _, s', rfl, hi, by simp, by simp [hi]⟩)
      | wait _ _ => exact .inr (.inl ⟨p, _, s', rfl, hi, by simp, by simp [hi]⟩)
      | sample _ _ => exact .inr (.inl ⟨p, _, s', rfl, hi, by simp, by simp [hi]⟩)
      | read _ _ => exact .inr (.inl ⟨p, _, s', rfl, hi, by simp, by simp [hi]⟩)

/-- One step of a running instance, by the sequencer and the inbox. -/
theorem stepWith_running {accept : Instr → State → Host.Outcome State Fault Refusal} {s : State}
    (hw : configWf s.cfg = true) (hb : s.boot = .running) :
    stepWith accept s = match s.seq with
      | .busy i k => continueCommand i k s
      | .idle => acceptNext accept s := by
  cases h : s.seq <;> simp [stepWith, hw, hb, h]

/-- `k + 1` steps of a machine that `k` steps bring to `t` are one step from `t`. -/
theorem run_succ_of_run (M : Host.Core) (k : Nat) (s t : M.State) (h : M.run k s = .next t) :
    M.run (k + 1) s = M.step t := by
  induction k generalizing s with
  | zero =>
    simp only [Host.Core.run, Host.Outcome.next.injEq] at h
    subst h
    simp only [Host.Core.run]
    cases M.step s <;> rfl
  | succ k ih =>
    rw [Host.Core.run] at h ⊢
    cases e : M.step s with
    | next s' => simp only [e] at h ⊢; exact ih s' h
    | fault r => simp [e] at h
    | refused r => simp [e] at h

/-- The same of this machine, whose step is `step`. -/
theorem core_run_succ {k : Nat} {s t : State} (h : Sys2Proof.core.run k s = .next t) :
    Sys2Proof.core.run (k + 1) s = step t := by
  have h' := run_succ_of_run Sys2Proof.core k s t h
  have e : Sys2Proof.core.step t = step t := by rfl
  exact h'.trans e

end Sys2Proof.Machine
end

