-- ==== Sys2Proof/Tests/Slice0.lean ====
section
/-! SUPPORT. The model's own tests: words written out bit by bit from the spec's encoding, the vectors of
spec/95_test_vectors.md, ill-formed terms the checks refuse, and for each statement with hypotheses a witness that meets
them. -/

-- One theorem at a time: many kernel evaluations side by side start more threads than the check's memory limit allows.
set_option Elab.async false

namespace Sys2Proof.Machine.Test

open Sys2Proof Sys2Proof.Machine

/-! ## Helpers -/

/-- The state of a vector: Range [lo, hi], the draws given, VALUE_IN `v`, otherwise as after reset. -/
def bench (lo hi : PhysNum) (analog : List Raw10) (digital : List Bit) (v : PhysNum) : State :=
  { State.reset with
    cfg := { Config.standard with minVal := lo, maxVal := hi }
    analogIn := analog, digitalIn := digital, valueIn := v }

/-- The same with ADC_RESAMPLE set. -/
def resampling (s : State) : State := { s with cfg := { s.cfg with adcResample := true } }

/-- The same with a command presented. -/
def presented (s : State) (w : CmdWord) (v : PhysNum) : State := s.present ⟨w, v⟩

def nextOf : Host.Outcome State Fault Refusal → Option State
  | .next t => some t
  | .fault _ => none
  | .refused _ => none

def answerOf (o : Host.Outcome State Fault Refusal) : Option Answer := (nextOf o).bind (·.answer)

/-- The events a command adds to those of reset. -/
def eventsOf (o : Host.Outcome State Fault Refusal) : Option (List Event) := (nextOf o).map (·.trace.drop 2)

def faultOf : Host.Outcome State Fault Refusal → Option Fault
  | .fault f => some f
  | .next _ => none
  | .refused _ => none

def refusalOf : Host.Outcome State Fault Refusal → Option Refusal
  | .refused r => some r
  | .next _ => none
  | .fault _ => none

/-! ## Decoding: words written out from R51 to R53, and 95_test_vectors.md section 2.1 -/

theorem test_decode_transmit : decode 0b0001_0000_1100_1101 = .command (.transmit 205) := by decide
theorem test_decode_writeOutput : decode 0b0010_0000_0000_0000 = .command .writeOutput := by decide
theorem test_decode_writeDigitalOutput : decode 0b0011_0000_0000_0001 = .command (.writeDigitalOutput high) := by decide
theorem test_decode_isConnected : decode 0b0100_0111_1111_1111 = .command (.isConnected 2047) := by decide
theorem test_decode_readAnalog : decode 0b0101_0000_0000_0111 = .command (.readAnalog 7) := by decide
theorem test_decode_readDigital : decode 0b0110_1111_1111_1111 = .command (.readDigital (-1)) := by decide
theorem test_decode_readPot : decode 0b0111_0000_0000_0000 = .command .readPot := by decide
theorem test_decode_isMasterConnected : decode 0b1000_0000_0000_0000 = .command .isMasterConnected := by decide
theorem test_decode_readMaster : decode 0b1001_0000_0000_0000 = .command .readMaster := by decide
theorem test_decode_readDip : decode 0b1010_1111_1111_1111 = .command (.readDip (-1)) := by decide
theorem test_decode_readSwitch : decode 0b1011_0000_0000_0000 = .command .readSwitch := by decide
theorem test_decode_readMasterSwitch : decode 0b1100_0000_0000_0000 = .command .readMasterSwitch := by decide
theorem test_decode_snapshot : decode 0b1101_0000_0000_0000 = .command .snapshot := by decide
theorem test_decode_most_negative_index : decode 0x4800 = .command (.isConnected (-2048)) := by decide
theorem test_decode_illegal :
    [0x0000, 0x0ABC, 0xE000, 0xF123, 0xFFFF].all (fun w => decode w == .illegal .reservedOpcode) ∧
    [0x2001, 0x2800, 0x3002, 0x3FFF, 0x7001, 0x8100, 0xC001, 0xD001].all
      (fun w => decode w == .illegal .operandBitsNotZero) := by decide
theorem test_decodeTableWord : decodeTableWord 16 0x5007 = some (.readAnalog 7) ∧ decodeTableWord 16 0x7001 = none ∧
    decodeTableWord 32 0x12000 = none := by decide

/-! ## Ill-formed terms, each refused by its check -/

theorem test_wf_index_range :
    [2048, -2049].all (fun n => !(Instr.isConnected n).wf && !(Instr.readAnalog n).wf && !(Instr.readDigital n).wf &&
      !(Instr.readDip n).wf) ∧
    [2047, -2048].all (fun n => (Instr.isConnected n).wf && (Instr.readAnalog n).wf && (Instr.readDigital n).wf &&
      (Instr.readDip n).wf) := by decide
theorem test_config_range : configWf Config.standard = true ∧
    configWf { Config.standard with maxVal := 0 } = false ∧ configWf { Config.standard with maxVal := -1 } = false := by
  decide
theorem test_config_pins :
    pinsWf { PinMap.standard with data := 0 } = false ∧ pinsWf { PinMap.standard with pot := 0 } = false ∧
    pinsWf { PinMap.standard with masterSw := 1 } = false ∧
    pinsWf { PinMap.standard with din := PinMap.standard.ain } = true := by decide
theorem test_config_relations :
    relationsWf { codeMax := 3890 } = false ∧ relationsWf { codeSpan := 0, codeMax := 205 } = false ∧
    relationsWf { stdSpan := 0 } = false ∧ relationsWf { masterSpan := 0 } = false ∧
    relationsWf { potDivisor := 0 } = false ∧ relationsWf { jackThreshold := 0 } = false ∧
    relationsWf { jackThreshold := 1025 } = false ∧ relationsWf { masterThreshold := 0 } = false ∧
    relationsWf { masterThreshold := 1025 } = false := by decide
theorem test_config_shapes :
    shapesWf { codeBits := 16 } = false ∧ shapesWf { rawMax := 4095 } = false ∧ shapesWf { numChannels := 8 } = false ∧
    shapesWf { numDips := 4 } = false ∧ shapesWf { frameSlots := 26 } = false ∧
    shapesWf { numChannels := 0 } = false ∧ shapesWf { numDips := 0 } = false ∧
    shapesWf { codeMin := 1000, codeMax := 4686 } = false ∧
    configWf { Config.standard with consts := { rawMax := 511, numChannels := 4, numDips := 1 } } = true ∧
    configWf { Config.standard with consts := { stdOffset := -51, masterOffset := -102 } } = true := by decide
/-- R7, R74: the constants are read by name: with four channels and one DIP switch the last ones are 3 and 0, and with
RAW_MAX 511 no sample is above it. -/
theorem test_constants_are_read :
    clampCh { numChannels := 4 } 9 = 3 ∧ clampCh { numChannels := 4 } 2 = 2 ∧ clampDip { numDips := 1 } 1 = 0 ∧
    sampleOf { rawMax := 511 } 511 = 511 ∧ sampleOf { rawMax := 511 } 512 = 0 ∧ sampleOf {} 1023 = 1023 ∧
    sentSlots {} 205 = frame 205 ∧ (sentSlots { frameSlots := 26 } 205).length = 26 := by decide +kernel

/-! ## Table P1, the frame and TRANSMIT (95_test_vectors.md sections S1, S2, 2.2) -/

theorem test_table_p1_code_span : Constants.tableP1.codeMax = Constants.tableP1.codeMin + Constants.tableP1.codeSpan := by
  decide
theorem test_frame_205 : bitsValue (frame 205) = 0x604039B ∧ bitsValue (frame 3891) = 0x6043E67 ∧
    bitsValue (frame 2730) = 0x6042B55 := by decide
theorem test_transmit_trace :
    (eventsOf (exec (.transmit 205) (bench 0 10 [] [] 0))).map (fun es => (es.take 8, es.drop 133, es.length)) =
      some ([.set 1 low, .delay 5, .set 0 low, .set 1 high, .set 0 high, .delay 5, .set 0 low, .delay 5],
        [.set 1 high, .set 0 high, .delay 5, .set 0 low, .delay 5, .set 0 high, .delay 5, .set 1 high, .delay 5],
        142) := by decide +kernel
theorem test_transmit_out_of_mapper_range :
    (nextOf (exec (.transmit 0) (bench 0 10 [] [] 0))).map (fun t => (t.clk, t.dat, t.outCache, t.answer)) =
      some (high, high, none, some ⟨.ok, .none⟩) := by decide +kernel

/-! ## WRITE_OUTPUT and WRITE_DIGITAL_OUTPUT (sections 2.3, 2.4) -/

theorem test_output_codes :
    outputCode (bench 0 10 [] [] 0).cfg (1 / 3) = 327 ∧ outputCode (bench 0 10 [] [] 0).cfg (9 / 3686) = 205 ∧
    outputCode (bench 0 10 [] [] 0).cfg (5 / 1843) = 206 ∧ outputCode (bench 0 10 [] [] 0).cfg (9999 / 1000) = 3890 ∧
    outputCode (bench (-5) 5 [] [] 0).cfg (1 / 2) = 2232 ∧ outputCode (bench 0 1 [] [] 0).cfg (1 / 3) = 1433 := by
  decide +kernel
theorem test_writeOutput_below_range :
    (nextOf (exec .writeOutput (bench (-5) 5 [] [] (-6)))).map (fun t => (t.outCache, t.trace.drop 2)) =
      some (some (-5), transmitEvents (bench (-5) 5 [] [] 0).cfg 205) := by decide +kernel
theorem test_writeOutput_above_range :
    (nextOf (exec .writeOutput (bench 0 10 [] [] 12))).map (fun t => (t.outCache, t.trace.drop 2)) =
      some (some 10, transmitEvents (bench 0 10 [] [] 0).cfg 3891) := by decide +kernel
theorem test_writeDigitalOutput_high :
    (nextOf (exec (.writeDigitalOutput high) (bench (-5) 5 [] [] 0))).map (fun t => (t.outCache, t.trace.drop 2)) =
      some (some 5, transmitEvents (bench (-5) 5 [] [] 0).cfg 3891) := by decide +kernel
theorem test_writeDigitalOutput_low :
    (nextOf (exec (.writeDigitalOutput low) (bench (-5) 5 [] [] 3))).map (fun t => (t.outCache, t.trace.drop 2)) =
      some (some (-5), transmitEvents (bench (-5) 5 [] [] 0).cfg 205) := by decide +kernel

/-! ## The reads (sections 2.5 to 2.10; the lines are those of `PinMap.standard`) -/

theorem test_isConnected_threshold :
    answerOf (exec (.isConnected 5) (bench 0 10 [989] [] 0)) = some ⟨.ok, .bool true⟩ ∧
    answerOf (exec (.isConnected 5) (bench 0 10 [990] [] 0)) = some ⟨.ok, .bool false⟩ := by decide +kernel
theorem test_isConnected_aliasing :
    eventsOf (exec (.isConnected (-1)) (bench 0 10 [1023] [] 0)) = some [.sample 2 1023] ∧
    eventsOf (exec (.isConnected 6) (bench 0 10 [100] [] 0)) = some [.sample 7 100] := by decide +kernel
theorem test_readAnalog_values :
    [(0, -5), (51, -5), (52, -2300 / 461), (281, -1155 / 461), (512, 0), (973, 5), (974, 5), (989, 5), (990, -5),
      (1023, -5)].all (fun (r, q) =>
        answerOf (exec (.readAnalog 0) (bench (-5) 5 [r] [] 0)) == some ⟨.ok, .phys q⟩) := by decide +kernel
theorem test_readAnalog_resample_caches :
    (nextOf (exec (.readAnalog 7) (resampling (bench 0 10 [500, 995] [] 0)))).map
        (fun t => (t.answer, t.insCache.toList, t.trace.drop 2)) =
      some (some ⟨.ok, .phys 10⟩, [none, none, none, none, none, some 10], [.sample 7 500, .sample 7 995]) ∧
    eventsOf (exec (.readAnalog 0) (resampling (bench 0 10 [995, 5] [] 0))) = some [.sample 2 995] := by decide +kernel
theorem test_readDigital_connected :
    answerOf (exec (.readDigital 3) (bench 0 10 [989] [high] 0)) = some ⟨.ok, .bit high⟩ ∧
    eventsOf (exec (.readDigital 7) (bench 0 10 [0] [high] 0)) = some [.sample 7 0, .read 13 high] := by decide +kernel
theorem test_readDigital_disconnected :
    (nextOf (exec (.readDigital 3) (bench 0 10 [990] [high] 0))).map (fun t => (t.answer, t.trace.drop 2, t.digitalIn)) =
      some (some ⟨.ok, .bit low⟩, [.sample 5 990], [high]) := by decide +kernel
theorem test_readPot :
    [(0, 0), (1, 1 / 1023), (341, 1 / 3), (1023, 1)].all (fun (r, q) =>
      (nextOf (exec .readPot (bench (-5) 5 [r] [] 0))).map (fun t => (t.answer, t.potCache)) ==
        some (some ⟨.ok, .unit q⟩, some q)) := by decide +kernel
theorem test_isMasterConnected_threshold :
    answerOf (exec .isMasterConnected (bench 0 10 [1009] [] 0)) = some ⟨.ok, .bool true⟩ ∧
    answerOf (exec .isMasterConnected (bench 0 10 [1010] [] 0)) = some ⟨.ok, .bool false⟩ := by decide +kernel
theorem test_readMaster_values :
    [(0, 0), (102, 0), (103, 1 / 819), (511, 409 / 819), (921, 1), (922, 1), (1009, 1), (1010, 0), (1023, 0)].all
      (fun (r, q) => answerOf (exec .readMaster (bench (-5) 5 [r] [] 0)) == some ⟨.ok, .unit q⟩) := by decide +kernel
theorem test_readMaster_resample :
    (nextOf (exec .readMaster (resampling (bench 0 10 [511, 1015] [] 0)))).map (fun t => (t.answer, t.trace.drop 2)) =
      some (some ⟨.ok, .unit 1⟩, [.sample 15 511, .sample 15 1015]) := by decide +kernel
theorem test_readDip :
    answerOf (exec (.readDip 0) (bench 0 10 [] [low] 0)) = some ⟨.ok, .bool true⟩ ∧
    eventsOf (exec (.readDip 2) (bench 0 10 [] [high] 0)) = some [.read 17 high] ∧
    eventsOf (exec (.readDip (-1)) (bench 0 10 [] [low] 0)) = some [.read 16 low] := by decide +kernel
theorem test_readSwitch :
    answerOf (exec .readSwitch (bench 0 10 [] [high] 0)) = some ⟨.ok, .bool false⟩ ∧
    eventsOf (exec .readSwitch (bench 0 10 [] [low] 0)) = some [.read 18 low] := by decide +kernel
theorem test_readMasterSwitch :
    answerOf (exec .readMasterSwitch (bench 0 10 [1023] [low] 0)) = some ⟨.ok, .bool true⟩ ∧
    eventsOf (exec .readMasterSwitch (bench 0 10 [1023] [high] 0)) = some [.read 19 high] := by decide +kernel
/-- A read with no listed draw completes on the free value: ordinary data ends no run. -/
theorem test_reads_complete_on_free_values :
    [Instr.isConnected 0, .readAnalog 0, .readDigital 0, .readPot, .isMasterConnected, .readMaster, .readDip 0,
      .readSwitch, .readMasterSwitch].all (fun i => (nextOf (exec i State.reset)).isSome) := by decide +kernel

/-! ## SNAPSHOT, reset, sequencing and the refined view (section 2.11, programs P1 and P3) -/

theorem test_snapshot_after_reset :
    answerOf (exec .snapshot State.reset) =
      some ⟨.ok, .snap ⟨none, #v[none, none, none, none, none, none], none⟩⟩ ∧
    eventsOf (exec .snapshot State.reset) = some [] := by decide +kernel
theorem test_snapshot_reports :
    answerOf (exec .snapshot { State.reset with outCache := some 5, potCache := some (1 / 3) }) =
      some ⟨.ok, .snap ⟨some 5, #v[none, none, none, none, none, none], some (1 / 3)⟩⟩ := by decide +kernel
/-- R106 and R28: Reset from any earlier contents. -/
theorem test_reset_step :
    (nextOf (step { State.reset with boot := .awaitingReset, clk := low, dat := low, outCache := some 3, trace := [] })) =
      some State.reset := by decide +kernel
theorem test_command_before_reset :
    faultOf (step { presented State.reset 0xD000 0 with boot := .awaitingReset }) = some .commandBeforeReset := by decide
theorem test_config_refused :
    refusalOf (step (presented (bench 10 10 [] [] 0) 0xD000 0)) = some .configRefused ∧
    refusalOf (exec .readPot (bench 10 0 [5] [] 0)) = some .configRefused := by decide +kernel
theorem test_step_illegal :
    nextOf (step (presented State.reset 0x3002 7)) =
      some { State.reset with answer := some ⟨.illegal, .none⟩ } := by decide +kernel
theorem test_step_runs_presented :
    (nextOf (step (presented (presented (bench 0 10 [] [] 0) 0x2000 12) 0xE000 0))).map
      (fun t => (t.outCache, t.valueIn, t.inbox)) = some (some 10, 12, [⟨0xE000, 0⟩]) := by decide +kernel
theorem test_step_idle : nextOf (step State.reset) = some State.reset := by decide +kernel
theorem test_withFetchWord :
    (nextOf (step (State.reset.withFetchWord 16 0xA002))).map (fun t => (t.inbox, t.trace.length)) = some ([], 3) := by
  decide +kernel
theorem test_refined_first_ticks :
    (nextOf (ticks 4 (presented State.reset 0x10CD 0))).map (fun t => (t.seq, t.clk, t.dat, t.trace.drop 2)) =
      some (.busy (.transmit 205) 3, low, low, [.set 1 low, .delay 5, .set 0 low]) := by decide +kernel
theorem test_refined_two_event_read :
    (nextOf (ticks 3 (presented (bench 0 10 [100] [high] 0) 0x6003 0))).map (fun t => (t.seq, t.answer)) =
      some (.idle, some ⟨.ok, .bit high⟩) := by decide +kernel
theorem test_sequencer_out_of_step :
    faultOf (step { State.reset with seq := .busy .readPot 1 }) = some .sequencerOutOfStep ∧
    faultOf (step { State.reset with seq := .busy .snapshot 0 }) = some .sequencerOutOfStep := by decide +kernel
theorem test_status_codes : statusCode .ok = 0 ∧ statusCode .illegal = 1 := by decide

/-! ## Assembler syntax (R60) -/

theorem test_parse_lines :
    (parseLine "TRANSMIT #0x10cd").bind assemble = none ∧
    (parseLine "TRANSMIT #0xCD").bind assemble = some ⟨0x10CD, 0⟩ ∧
    (parseLine "TRANSMIT #205").bind assemble = some ⟨0x10CD, 0⟩ ∧
    (parseLine "WRITE_OUTPUT -3/2").bind assemble = some ⟨0x2000, -3 / 2⟩ ∧
    (parseLine "WRITE_OUTPUT 5").bind assemble = some ⟨0x2000, 5⟩ := by decide +kernel
theorem test_parse_more_lines :
    (parseLine "WRITE_DIGITAL_OUTPUT #1").bind assemble = some ⟨0x3001, 0⟩ ∧
    (parseLine "WRITE_DIGITAL_OUTPUT #2").bind assemble = none ∧
    (parseLine "READ_ANALOG #-1").bind assemble = some ⟨0x5FFF, 0⟩ ∧
    (parseLine "READ_DIP #2048").bind assemble = none ∧
    (parseLine "SNAPSHOT").bind assemble = some ⟨0xD000, 0⟩ ∧
    (parseLine "WRITE_OUTPUT 1/0").bind assemble = none ∧ (parseLine "RESET").bind assemble = none := by decide +kernel

/-! ## Witnesses: for each statement with hypotheses, values that meet all of them -/

theorem witness_DecodeOfEncode : (Instr.readDigital (-2048)).wf = true := by decide
theorem witness_EncodeOfDecode : decode 0xAFFF = .command (.readDip (-1)) := by decide
theorem witness_AssembleOfDisassemble : (Instr.readDip 2047).wf = true ∧ Instr.writeOutput.wf = true := by decide
theorem witness_MemReadReturnsTheDraw :
    (1023 : Raw10).val ≤ (bench 0 10 [1023] [low] 0).cfg.consts.rawMax ∧
    (bench 0 10 [1023] [low] 0).cfg.consts = Constants.tableP1 ∧
    (bench 0 10 [1023] [low] 0).analogIn = 1023 :: [] ∧ (bench 0 10 [1023] [low] 0).digitalIn = low :: [] := by decide
/-- The configurations and states of every statement whose one hypothesis is a well-formed configuration. -/
theorem witness_wellFormed_configuration :
    configWf (bench (-5) 5 [] [] 0).cfg = true ∧ configWf (resampling (bench 0 1 [] [] 0)).cfg = true := by decide
theorem witness_TransmitEventCounts : (bench 0 10 [] [] 0).cfg.consts.holdUs = 5 := by decide
theorem witness_OutputCodeRangeAndEnds :
    configWf (bench 0 10 [] [] 0).cfg = true ∧ (0 : PhysNum) ≤ (bench 0 10 [] [] 0).cfg.minVal ∧
    (bench 0 10 [] [] 0).cfg.maxVal ≤ 10 := by decide
theorem witness_OutputCodeMonotone : configWf (bench 0 10 [] [] 0).cfg = true ∧ (3 : PhysNum) ≤ 4 := by decide
theorem witness_RoundTripWithinOneStep :
    configWf (bench 0 10 [] [] 0).cfg = true ∧ (bench 0 10 [] [] 0).cfg.minVal ≤ 10 ∧
    (10 : PhysNum) ≤ (bench 0 10 [] [] 0).cfg.maxVal ∧ (10 : PhysNum) = (bench 0 10 [] [] 0).cfg.maxVal := by decide
/-- Its three clauses, at the ends of their ranges: VALUE_IN = minVal, = maxVal, and one step below maxVal. -/
theorem witness_WriteOutputSendsTheClampedValue :
    configWf (bench 0 10 [] [] 0).cfg = true ∧
    (bench 0 10 [] [] 0).valueIn ≤ (bench 0 10 [] [] 0).cfg.minVal ∧
    (bench 0 10 [] [] 10).cfg.maxVal ≤ (bench 0 10 [] [] 10).valueIn ∧
    (bench 0 10 [] [] (10 - 10 / 3686)).cfg.maxVal - codeStep (bench 0 10 [] [] (10 - 10 / 3686)).cfg ≤
      (bench 0 10 [] [] (10 - 10 / 3686)).valueIn ∧
    (bench 0 10 [] [] (10 - 10 / 3686)).valueIn < (bench 0 10 [] [] (10 - 10 / 3686)).cfg.maxVal ∧
    (0x2001 : CmdWord) ≤ 0x2FFF ∧ (0x2FFF : CmdWord) ≤ 0x2FFF := by decide +kernel
theorem witness_WriteDigitalOutputIsFullScale :
    configWf (bench 0 10 [] [] 0).cfg = true ∧ (0x3002 : CmdWord) ≤ 0x3002 ∧ (0x3002 : CmdWord) ≤ 0x3FFF := by decide
/-- R74's clauses meet at 0, 1 and 5, with one outcome at each. -/
theorem witness_IndexClamping :
    configWf (bench 0 10 [] [] 0).cfg = true ∧ (bench 0 10 [] [] 0).cfg.consts = Constants.tableP1 ∧
    (clampCh Constants.tableP1 0).val = 0 ∧ (clampCh Constants.tableP1 5).val = 5 ∧
    (clampDip Constants.tableP1 0).val = 0 ∧ (clampDip Constants.tableP1 1).val = 1 := by decide
/-- The configuration of a vector with a negative STD_OFFSET and MASTER_OFFSET. -/
def negativeOffsets (c : Config) : Config := { c with consts := { stdOffset := -100, masterOffset := -100 } }

/-- The clauses meet at raw 51 and 973, with one outcome at each; and at STD_OFFSET + STD_SPAN = 822 of other constants. -/
theorem witness_GenericChannelMapping :
    configWf (bench 0 10 [] [] 0).cfg = true ∧ (bench 0 10 [] [] 0).cfg.consts = Constants.tableP1 ∧
    physStd (bench 0 10 [] [] 0).cfg 51 = 0 ∧ physStd (bench 0 10 [] [] 0).cfg 973 = 10 ∧
    configWf (negativeOffsets (bench 0 10 [] [] 0).cfg) = true ∧
    physStd (negativeOffsets (bench 0 10 [] [] 0).cfg) 822 = 10 ∧
    physStd (negativeOffsets (bench 0 10 [] [] 0).cfg) 361 = 5 := by decide +kernel
theorem witness_UnitMappings :
    configWf (bench 0 10 [] [] 0).cfg = true ∧ (bench 0 10 [] [] 0).cfg.consts = Constants.tableP1 ∧ unitMaster (bench 0 10 [] [] 0).cfg 102 = 0 ∧
    unitMaster (bench 0 10 [] [] 0).cfg 921 = 1 ∧
    (1023 : Raw10).val ≤ (bench 0 10 [] [] 0).cfg.consts.potDivisor ∧
    unitMaster (negativeOffsets (bench 0 10 [] [] 0).cfg) 719 = 1 ∧
    unitMaster (negativeOffsets (bench 0 10 [] [] 0).cfg) 718 = 818 / 819 := by decide +kernel
theorem witness_IsConnectedTestsOneSample :
    configWf (bench 0 10 [] [] 0).cfg = true ∧ (-2048 : Int) ≤ -2048 ∧ (-2048 : Int) ≤ 2047 := by decide
/-- The three cases of a checked read: at the threshold, just below it, and just below it with ADC_RESAMPLE. -/
theorem witness_ReadAnalogMapsAndCaches :
    configWf (bench 0 10 [990] [] 0).cfg = true ∧
    (bench 0 10 [990] [] 0).cfg.consts.jackThreshold ≤ (bench 0 10 [990] [] 0).nextRaw.val ∧
    (bench 0 10 [989] [] 0).nextRaw.val < (bench 0 10 [989] [] 0).cfg.consts.jackThreshold ∧
    (bench 0 10 [989] [] 0).cfg.adcResample = false ∧
    (resampling (bench 0 10 [989] [] 0)).nextRaw.val < (resampling (bench 0 10 [989] [] 0)).cfg.consts.jackThreshold ∧
    (resampling (bench 0 10 [989] [] 0)).cfg.adcResample = true := by decide
theorem witness_ReadDigitalReadsOnlyWhenConnected :
    configWf (bench 0 10 [990] [] 0).cfg = true ∧
    (bench 0 10 [990] [] 0).cfg.consts.jackThreshold ≤ (bench 0 10 [990] [] 0).nextRaw.val ∧
    (bench 0 10 [989] [low] 0).nextRaw.val < (bench 0 10 [989] [low] 0).cfg.consts.jackThreshold := by decide
theorem witness_ReadMasterMapsWithoutCache :
    configWf (bench 0 10 [1010] [] 0).cfg = true ∧
    (bench 0 10 [1010] [] 0).cfg.consts.masterThreshold ≤ (bench 0 10 [1010] [] 0).nextRaw.val ∧
    (bench 0 10 [1009] [] 0).nextRaw.val < (bench 0 10 [1009] [] 0).cfg.consts.masterThreshold ∧
    (bench 0 10 [1009] [] 0).cfg.adcResample = false ∧
    (resampling (bench 0 10 [1009] [] 0)).nextRaw.val <
      (resampling (bench 0 10 [1009] [] 0)).cfg.consts.masterThreshold ∧
    (resampling (bench 0 10 [1009] [] 0)).cfg.adcResample = true := by decide
theorem witness_ReadDipIsActiveLow :
    configWf (bench 0 10 [] [low] 0).cfg = true ∧ (-2048 : Int) ≤ 2047 ∧ (2047 : Int) ≤ 2047 := by decide
theorem witness_ReadResultsInRange :
    (bench 0 10 [5] [] 0).cfg.consts.rawMax ≤ (bench 0 10 [5] [] 0).cfg.consts.potDivisor ∧
    (nextOf (exec (.readAnalog 0) (bench 0 10 [5] [] 0))).isSome = true ∧
    (nextOf (exec .readPot (bench 0 10 [5] [] 0))).isSome = true ∧
    (nextOf (exec .readMaster (bench 0 10 [5] [] 0))).isSome = true := by decide +kernel
theorem witness_InputMappingsMonotone : configWf (bench 0 10 [] [] 0).cfg = true ∧ (989 : Raw10) ≤ 990 := by decide
theorem witness_DisconnectedChannelAgreement :
    configWf (bench 0 10 [990] [] 0).cfg = true ∧
    (bench 0 10 [990] [] 0).cfg.consts.jackThreshold ≤ (bench 0 10 [990] [] 0).nextRaw.val := by decide
theorem witness_IndexAliasing :
    (5 : Int) = ((bench 0 10 [] [] 0).cfg.consts.numChannels : Int) - 1 ∧
    (1 : Int) = ((bench 0 10 [] [] 0).cfg.consts.numDips : Int) - 1 ∧ (-1 : Int) ≤ 0 ∧ (5 : Int) ≤ 6 ∧ (1 : Int) ≤ 2 ∧
    clampCh Constants.tableP1 (-1) = clampCh Constants.tableP1 0 ∧
    clampCh Constants.tableP1 6 = clampCh Constants.tableP1 5 := by decide
theorem witness_IllegalWordOnlyAnswers :
    configWf (presented State.reset 0x3FFF 0).cfg = true ∧ (presented State.reset 0x3FFF 0).boot = .running ∧
    (presented State.reset 0x3FFF 0).seq = .idle ∧ (presented State.reset 0x3FFF 0).inbox = ⟨0x3FFF, 0⟩ :: [] ∧
    decode 0x3FFF = .illegal .operandBitsNotZero := by decide +kernel
/-- Commands of every kind answer a next state from one state, so that no frame statement is empty. -/
theorem witness_frames :
    [Instr.transmit 205, .writeOutput, .writeDigitalOutput low, .isConnected 0, .readAnalog 0, .readDigital 0, .readPot,
      .isMasterConnected, .readMaster, .readDip 0, .readSwitch, .readMasterSwitch, .snapshot].all
        (fun i => (nextOf (exec i (bench 0 10 [5] [low] 3))).isSome) := by decide +kernel
theorem witness_CachesWrittenOnlyByTheirCommands :
    (0 : Fin 6) ≠ clampCh Constants.tableP1 7 ∧ clampCh Constants.tableP1 7 = 5 := by decide
theorem witness_ValueInReadOnlyByWriteOutput : Instr.writeDigitalOutput low ≠ .writeOutput := by decide
theorem witness_OnlySnapshotReadsTheCaches :
    Instr.readPot ≠ .snapshot ∧ (nextOf (exec .readPot (bench 0 10 [5] [] 0))).isSome = true := by decide +kernel
theorem witness_ConfigurationNeverChanges :
    (nextOf (step (presented State.reset 0xD000 0))).isSome = true ∧
    (nextOf (tick (presented State.reset 0x1000 0))).isSome = true := by decide +kernel
/-- Each kind of ill-formed configuration: the Range, the PinMap (R21), the constants (R19), and log entry 7's. -/
theorem witness_IllFormedConfigurationRefused :
    configWf (bench 0 10 [] [] 0).cfg = true ∧ configWf (bench 10 10 [] [] 0).cfg = false ∧
    configWf { Config.standard with pins := { PinMap.standard with data := 0 } } = false ∧
    configWf { Config.standard with pins := { PinMap.standard with ain := #v[2, 3, 0, 5, 6, 7] } } = false ∧
    configWf { Config.standard with consts := { jackThreshold := 1025 } } = false ∧
    configWf { Config.standard with consts := { frameSlots := 26 } } = false := by decide
theorem witness_StepRunsTheDecodedCommand :
    configWf (presented State.reset 0x1FFF 0).cfg = true ∧ (presented State.reset 0x1FFF 0).boot = .running ∧
    (presented State.reset 0x1FFF 0).seq = .idle ∧ (presented State.reset 0x1FFF 0).inbox = ⟨0x1FFF, 0⟩ :: [] ∧
    decode 0x1FFF = .command (.transmit 4095) := by decide +kernel
theorem witness_PresentedWordRunsNext :
    configWf State.reset.cfg = true ∧ decodeTableWord 16 0xD000 = some .snapshot := by decide
/-- Its two cases: Busy, and Idle with a command waiting. -/
theorem witness_PresentedCommandsAreHeld :
    State.reset.boot = .running ∧ ({ State.reset with seq := .busy .readPot 0 } : State).seq ≠ .idle ∧
    (nextOf (step { State.reset with seq := .busy .readPot 0 })).isSome = true ∧
    (presented State.reset 0xD000 0).inbox ≠ [] := by decide +kernel
theorem witness_IdleBlockWaits :
    configWf State.reset.cfg = true ∧ State.reset.boot = .running ∧ State.reset.seq = .idle ∧ State.reset.inbox = [] := by
  decide
theorem witness_ResetComesFirstAndOnce :
    ({ State.reset with boot := .awaitingReset } : State).boot = .awaitingReset ∧
    ({ State.reset with boot := .awaitingReset } : State).inbox = [] ∧
    ({ presented State.reset 0 0 with boot := .awaitingReset } : State).inbox ≠ [] ∧
    (nextOf (step { State.reset with boot := .awaitingReset })).isSome = true := by decide +kernel

/-- A boundary with values in its caches and a command waiting. -/
def boundaryState : State :=
  { presented (bench 0 10 [500] [] 0) 0x5002 0 with
    outCache := some 10, insCache := #v[some 0, none, none, none, none, some 5], potCache := some 1 }

theorem witness_AtBoundary : boundaryState.AtBoundary where
  wellFormed := by decide
  potScale := by decide
  running := rfl
  idle := rfl
  bus := ⟨rfl, rfl⟩
  caches := by
    refine ⟨?_, ?_, ?_⟩
    · rintro v ⟨rfl⟩; exact ⟨by decide, by decide⟩
    · intro i v h
      match i, h with
      | 0, h => cases h; exact ⟨by decide, by decide⟩
      | 5, h => cases h; exact ⟨by decide, by decide⟩
      | 1, h => cases h
      | 2, h => cases h
      | 3, h => cases h
      | 4, h => cases h
    · rintro p ⟨rfl⟩; exact ⟨by decide, by decide⟩

/-- `boundaryState` meets both hypotheses, with its one command (legal) and with an illegal word behind it. -/
theorem witness_WaitingCommandsAreServedInOrder :
    boundaryState.inbox[0]? = some ⟨0x5002, 0⟩ ∧ (presented boundaryState 0xFFFF 0).inbox[1]? = some ⟨0xFFFF, 0⟩ ∧
    decode 0xFFFF = .illegal .reservedOpcode := by decide
theorem witness_RefinedViewAgreesWithAtomicStep :
    configWf boundaryState.cfg = true ∧ boundaryState.boot = .running ∧ boundaryState.seq = .idle ∧
    boundaryState.inbox = ⟨0x5002, 0⟩ :: [] ∧ decode 0x5002 = .command (.readAnalog 2) ∧
    (nextOf (step boundaryState)).isSome = true := by decide +kernel

end Sys2Proof.Machine.Test
end

section
/-! The state right after reset (spec/10_state.md R28). -/

namespace Sys2Proof.Machine

theorem State.reset_insCache_getElem (i : Fin 6) : State.reset.insCache[i] = none :=
  Vector.getElem_replicate i.isLt

/-- Settles O51: `State.reset` is a literal record, so R28's table is read off its fields (the channel caches entry by
entry), and Reset keeps the configuration because it only clears caches and drives the two lines. -/
theorem resetValues : Obligations.ResetValues :=
  ⟨rfl, rfl, rfl, State.reset_insCache_getElem, rfl, rfl, State.performReset_cfg⟩

end Sys2Proof.Machine
end

section
/-! The collaborator primitives: driving a line and the two reads (spec/20_memory.md R30 to R32). -/

namespace Sys2Proof.Machine

/-- Settles O8: `State.drive` makes the update whatever level the line has, so a redundant drive is no case of its own. -/
theorem memWriteDrivesAndRecords : Obligations.MemWriteDrivesAndRecords := by
  intro s line v rest
  rw [Proc.run_drive, State.drive]

/-- R31: a listed draw in 0..RAW_MAX is the next sample. -/
theorem State.nextRaw_of_analogIn {s : State} {r : Raw10} {later : List Raw10}
    (hr : r.val ≤ s.cfg.consts.rawMax) (h : s.analogIn = r :: later) : s.nextRaw = r := by
  rw [State.nextRaw, h, List.head?_cons, Option.getD_some, sampleOf_of_le hr]

/-- R32: the listed draw is the next level read. -/
theorem State.nextBit_of_digitalIn {s : State} {b : Bit} {later : List Bit} (h : s.digitalIn = b :: later) :
    s.nextBit = b := by
  rw [State.nextBit, h, List.head?_cons, Option.getD_some]

/-- R7, R31: with the RAW_MAX of Table P1 every Raw10 is in 0..RAW_MAX. -/
theorem Raw10.val_le_rawMax_of_tableP1 {k : Constants} (h : k = Constants.tableP1) (r : Raw10) : r.val ≤ k.rawMax := by
  subst h
  exact Nat.le_of_lt_succ r.isLt

/-- Settles O9: the draw listed first is the one returned and recorded (`State.nextRaw_of_analogIn`,
`State.nextBit_of_digitalIn`); an analog draw is in 0..RAW_MAX by the premise, or
because RAW_MAX is Table P1's. -/
theorem memReadReturnsTheDraw : Obligations.MemReadReturnsTheDraw := by
  constructor
  · intro s line r later k hr h
    have hle : r.val ≤ s.cfg.consts.rawMax := hr.elim id (Raw10.val_le_rawMax_of_tableP1 · r)
    rw [Proc.run_sample, State.sampled, State.nextRaw_of_analogIn hle h, h, List.tail_cons]
  · intro s line b later k h
    rw [Proc.run_read, State.wasRead, State.nextBit_of_digitalIn h, h, List.tail_cons]

end Sys2Proof.Machine
end

section
/-! VALUE_IN is no operand of a command but WRITE_OUTPUT (spec/30_encoding.md R54). -/

namespace Sys2Proof.Machine

/-- No primitive reads or writes VALUE_IN, so it passes through a command's sequence as it was presented. -/
theorem Proc.run_withValueIn (p : Proc) (s : State) (v : PhysNum) :
    p.run { s with valueIn := v } = { p.run s with valueIn := v } := by
  induction p generalizing s with
  | done w r => cases w <;> rfl
  | drive line b rest ih => exact ih (s.drive line b)
  | wait n rest ih => exact ih (s.wait n)
  | sample line rest ih => exact ih s.nextRaw (s.sampled line)
  | read line rest ih => exact ih s.nextBit (s.wasRead line)

/-- R54: VALUE_IN takes no part in choosing the primitives of a command other than WRITE_OUTPUT. -/
theorem procOf_withValueIn {i : Instr} (h : i ≠ .writeOutput) (s : State) (v : PhysNum) :
    procOf i { s with valueIn := v } = procOf i s := by
  cases i
  case writeOutput => exact absurd rfl h
  all_goals rfl

/-- Settles O40: the command performs the same primitives (`procOf_withValueIn`), and running them carries VALUE_IN
along (`Proc.run_withValueIn`); whether the configuration is refused does not depend on it. -/
theorem valueInReadOnlyByWriteOutput : Obligations.ValueInReadOnlyByWriteOutput := by
  intro i s v h
  rw [exec_eq_perform, exec_eq_perform, procOf_withValueIn h, mapNext_perform, perform, Proc.run_withValueIn]

end Sys2Proof.Machine
end

section
/-! The Protocol Encoder: its three procedures on the two lines, and TRANSMIT (spec/40_protocol_encoder.md R61 to R65). -/

namespace Sys2Proof.Machine

/-- R21, R30: CLOCK is not DATA, so a drive of CLOCK leaves `dat`. -/
theorem State.drive_clock {s : State} (hw : configWf s.cfg = true) (v : Bit) :
    s.drive s.cfg.pins.clock v = { s with clk := v, trace := s.trace ++ [.set s.cfg.pins.clock v] } := by
  rw [State.drive, if_pos rfl, if_neg (configWf.clock_ne_data hw)]

/-- R21, R30: DATA is not CLOCK, so a drive of DATA leaves `clk`. -/
theorem State.drive_data {s : State} (hw : configWf s.cfg = true) (v : Bit) :
    s.drive s.cfg.pins.data v = { s with dat := v, trace := s.trace ++ [.set s.cfg.pins.data v] } := by
  rw [State.drive, if_neg (configWf.clock_ne_data hw).symm, if_pos rfl]

/-- R61: the start condition's events, and both lines left at 0. -/
theorem run_startCondition {s : State} (hw : configWf s.cfg = true) (rest : Proc) :
    (startCondition s.cfg rest).run s = rest.run { s with
      clk := low, dat := low, trace := s.trace ++ startEvents s.cfg } := by
  simp [startCondition, startEvents, State.drive_data hw, State.wait, State.emit, State.drive_clock, hw]

/-- R62: one slot's events, CLOCK left at 0 and DATA at the bit written. -/
theorem run_writeBit {s : State} (hw : configWf s.cfg = true) (b : Bit) (rest : Proc) :
    (writeBit s.cfg b rest).run s = rest.run { s with
      clk := low, dat := b, trace := s.trace ++ slotEvents s.cfg b } := by
  simp [writeBit, slotEvents, State.drive_data hw, State.wait, State.emit, State.drive_clock, hw]

/-- R63: the stop condition's events, and both lines left at 1. -/
theorem run_stopCondition {s : State} (hw : configWf s.cfg = true) (rest : Proc) :
    (stopCondition s.cfg rest).run s = rest.run { s with
      clk := high, dat := high, trace := s.trace ++ stopEvents s.cfg } := by
  simp [stopCondition, stopEvents, State.drive_clock hw, State.wait, State.emit, State.drive_data, hw]

/-- Settles O10: each procedure drives both lines, each line by its own drive (`State.drive_clock`, `State.drive_data`),
so its last drive of a line fixes that line's final level. -/
theorem encoderProceduresDriveTheLines : Obligations.EncoderProceduresDriveTheLines :=
  fun _ b rest hw => ⟨run_startCondition hw rest, run_writeBit hw b rest, run_stopCondition hw rest⟩

/-- R52, R65: the word of TRANSMIT, `0x1000 | code`. -/
theorem encode_transmit (code : Code12) : encode (.transmit code) = 0x1000#16 ||| code.setWidth 16 := by
  rw [encode, wordOf, BitVec.append_def]
  rfl

/-- R53 form CODE12: every operand of TRANSMIT is legal and is the code itself. -/
theorem decode_encode_transmit (code : Code12) : decode (encode (.transmit code)) = .command (.transmit code) := by
  simp [encode, decode, decodeCode12]

/-- R62: five events to a slot. -/
theorem length_flatMap_slotEvents (c : Config) (bits : List Bit) :
    (bits.flatMap (slotEvents c)).length = 5 * bits.length := by
  have hslot (b : Bit) : (slotEvents c b).length = 5 := rfl
  simp [List.length_flatMap, hslot, Nat.mul_comm]

/-- R68: 3 events of the start condition, 27 slots of 5, and 4 of the stop condition. -/
theorem length_transmitEvents (c : Config) (code : Code12) : (transmitEvents c code).length = 142 := by
  rw [transmitEvents, List.length_append, List.length_append, length_flatMap_slotEvents]
  rfl

/-- Settles O11: the word is TRANSMIT's encoding, and its run is `run_transmit`'s frame followed by the answer, with no
cache write. -/
theorem transmitSendsOneFrame : Obligations.TransmitSendsOneFrame := by
  refine ⟨fun code s hw => ⟨?_, length_transmitEvents s.cfg code, ?_⟩, decode_encode_transmit 205, by decide⟩
  · rw [← encode_transmit, decode_encode_transmit]
  · rw [exec_eq_perform, perform_of_wf hw, procOf, transmitProc, run_transmit hw, Proc.run_done]
    rfl

end Sys2Proof.Machine
end

section
/-! The operand bits of forms NONE and BIT: which words they make illegal (spec/30_encoding.md R53, R56). -/

namespace Sys2Proof

/-- R51: the opcode is the word's high four bits, as a number. -/
theorem opField_toNat (w : CmdWord) : (opField w).toNat = w.toNat / 4096 := by
  rw [opField, BitVec.extractLsb'_toNat, Nat.shiftRight_eq_div_pow]
  have := w.isLt
  omega

/-- R51: the operand field is the word's low twelve bits, as a number. -/
theorem opdField_toNat (w : CmdWord) : (opdField w).toNat = w.toNat % 4096 := by
  rw [opdField, BitVec.extractLsb'_toNat, Nat.shiftRight_zero]

/-- R53 form NONE: an operand field above 0 is illegal. -/
theorem decodeNone_of_pos {opd : BitVec 12} (h : 0 < opd.toNat) (i : Instr) :
    decodeNone opd i = .illegal .operandBitsNotZero := by
  have hne : opd ≠ 0 := fun h0 => by simp [h0] at h
  rw [decodeNone, if_neg hne]

/-- R53 form BIT: an operand field above 1 is illegal. -/
theorem decodeBit_of_one_lt {opd : BitVec 12} (h : 1 < opd.toNat) (f : Bit → Instr) :
    decodeBit opd f = .illegal .operandBitsNotZero := by
  have hne : opd.extractLsb' 1 11 ≠ 0 := by
    intro h0
    have hz := congrArg BitVec.toNat h0
    simp only [BitVec.extractLsb'_toNat, Nat.shiftRight_eq_div_pow, BitVec.reduceToNat] at hz
    have := opd.isLt
    omega
  rw [decodeBit, if_neg hne]

/-- R56: 0x2001..0x2FFF. -/
theorem decode_writeOutput_nonzero_illegal {w : CmdWord} (hl : 0x2001 ≤ w) (hu : w ≤ 0x2FFF) :
    decode w = .illegal .operandBitsNotZero := by
  simp only [BitVec.le_def, BitVec.reduceToNat] at hl hu
  have hop : (opField w).toNat = 0x2 := by rw [opField_toNat]; omega
  have hopd : 0 < (opdField w).toNat := by rw [opdField_toNat]; omega
  simp only [decode, hop, decodeNone_of_pos hopd]

/-- R56: 0x3002..0x3FFF. -/
theorem decode_writeDigitalOutput_above_one_illegal {w : CmdWord} (hl : 0x3002 ≤ w) (hu : w ≤ 0x3FFF) :
    decode w = .illegal .operandBitsNotZero := by
  simp only [BitVec.le_def, BitVec.reduceToNat] at hl hu
  have hop : (opField w).toNat = 0x3 := by rw [opField_toNat]; omega
  have hopd : 1 < (opdField w).toNat := by rw [opdField_toNat]; omega
  simp only [decode, hop, decodeBit_of_one_lt hopd]

end Sys2Proof
end

section
/-! The output transform: its code as a floor, and its value at the ends of the Range (spec/41_output_mapper.md R69,
R70). -/

namespace Sys2Proof.Machine

variable {c : Config}

theorem codeStep_pos (hw : configWf c = true) : 0 < codeStep c :=
  div_pos (sub_pos.2 (configWf.range hw)) (Nat.cast_pos.2 (configWf.relations hw).2.1)

/-- A Range is CODE_SPAN steps wide, so it holds at least one. -/
theorem minVal_le_maxVal_sub_codeStep (hw : configWf c = true) : c.minVal ≤ c.maxVal - codeStep c := by
  obtain ⟨-, hspan, -⟩ := configWf.relations hw
  have hstep : codeStep c ≤ c.maxVal - c.minVal :=
    div_le_self (sub_nonneg.2 (configWf.range hw).le) (Nat.one_le_cast.2 hspan)
  linarith

/-- R69, read from the top: a value lies as many codes below CODE_MAX as it lies code steps below maxVal. -/
theorem affineCode_eq_codeMax_sub (hw : configWf c = true) (u : PhysNum) :
    affineCode c u = c.consts.codeMax - (c.maxVal - u) / codeStep c := by
  obtain ⟨hmax, hspan, -⟩ := configWf.relations hw
  have hrange : c.maxVal - c.minVal ≠ 0 := (sub_pos.2 (configWf.range hw)).ne'
  have hspan' : (c.consts.codeSpan : PhysNum) ≠ 0 := Nat.cast_ne_zero.2 hspan.ne'
  rw [affineCode, codeStep, hmax]
  push_cast
  field_simp
  ring

theorem affineCode_mono (hw : configWf c = true) {u v : PhysNum} (h : u ≤ v) : affineCode c u ≤ affineCode c v := by
  have hstep := codeStep_pos hw
  rw [affineCode_eq_codeMax_sub hw, affineCode_eq_codeMax_sub hw]
  gcongr

theorem affineCode_minVal (c : Config) : affineCode c c.minVal = c.consts.codeMin := by
  simp [affineCode]

theorem affineCode_maxVal (hw : configWf c = true) : affineCode c c.maxVal = c.consts.codeMax := by
  simp [affineCode_eq_codeMax_sub hw]

/-- R69: of a value in the Range the floor needs no clamp to CODE_MIN..CODE_MAX. -/
theorem floor_affineCode_mem (hw : configWf c = true) {u : PhysNum} (hl : c.minVal ≤ u) (hu : u ≤ c.maxVal) :
    (c.consts.codeMin : Int) ≤ ⌊affineCode c u⌋ ∧ ⌊affineCode c u⌋ ≤ (c.consts.codeMax : Int) := by
  have hlo := Int.floor_mono (affineCode_mono hw hl)
  have hhi := Int.floor_mono (affineCode_mono hw hu)
  rw [affineCode_minVal, Int.floor_natCast] at hlo
  rw [affineCode_maxVal hw, Int.floor_natCast] at hhi
  exact ⟨hlo, hhi⟩

theorem clampToRange_of_le_minVal (hw : configWf c = true) {v : PhysNum} (h : v ≤ c.minVal) :
    clampToRange c v = c.minVal := clamp_of_le (configWf.range hw).le h

theorem clampToRange_of_maxVal_le (hw : configWf c = true) {v : PhysNum} (h : c.maxVal ≤ v) :
    clampToRange c v = c.maxVal := clamp_of_ge (configWf.range hw).le h

theorem clampToRange_of_mem {v : PhysNum} (hl : c.minVal ≤ v) (hu : v ≤ c.maxVal) : clampToRange c v = v :=
  clamp_of_mem hl hu

/-- R69: the code of a value in the Range is the floor of its affine image; it fits a Code12. -/
theorem outputCode_toNat_of_mem (hw : configWf c = true) {v : PhysNum} (hl : c.minVal ≤ v) (hu : v ≤ c.maxVal) :
    ((outputCode c v).toNat : Int) = ⌊affineCode c v⌋ := by
  obtain ⟨hlo, hhi⟩ := floor_affineCode_mem hw hl hu
  obtain ⟨-, hfit, -⟩ := configWf.shapes hw
  rw [outputCode, outputLevel, clampToRange_of_mem hl hu, codeOfAffine, clamp_of_mem hlo hhi, BitVec.toNat_ofInt]
  omega

/-- R70 item 3. -/
theorem outputCode_minVal_toNat (hw : configWf c = true) : (outputCode c c.minVal).toNat = c.consts.codeMin := by
  have h := outputCode_toNat_of_mem hw le_rfl (configWf.range hw).le
  rw [affineCode_minVal, Int.floor_natCast] at h
  exact Int.ofNat_inj.1 h

/-- R70 item 3. -/
theorem outputCode_maxVal_toNat (hw : configWf c = true) : (outputCode c c.maxVal).toNat = c.consts.codeMax := by
  have h := outputCode_toNat_of_mem hw (configWf.range hw).le le_rfl
  rw [affineCode_maxVal hw, Int.floor_natCast] at h
  exact Int.ofNat_inj.1 h

/-- R71: a value within one step below maxVal is more than 0 and at most 1 code below CODE_MAX, so its floor is
CODE_MAX - 1. -/
theorem outputCode_toNat_within_step_of_maxVal (hw : configWf c = true) {v : PhysNum}
    (hl : c.maxVal - codeStep c ≤ v) (hu : v < c.maxVal) : (outputCode c v).toNat = c.consts.codeMax - 1 := by
  have hstep := codeStep_pos hw
  have hpos : 0 < (c.maxVal - v) / codeStep c := div_pos (sub_pos.2 hu) hstep
  have hone : (c.maxVal - v) / codeStep c ≤ 1 := (div_le_one hstep).2 (by linarith)
  have hfloor : ⌊affineCode c v⌋ = (c.consts.codeMax : Int) - 1 := by
    rw [affineCode_eq_codeMax_sub hw, Int.floor_eq_iff]
    push_cast
    constructor <;> linarith
  have h := outputCode_toNat_of_mem hw ((minVal_le_maxVal_sub_codeStep hw).trans hl) hu.le
  omega

end Sys2Proof.Machine
end

section
/-! WRITE_OUTPUT and WRITE_DIGITAL_OUTPUT (spec/41_output_mapper.md R71, R72). -/

namespace Sys2Proof.Machine

/-- R71: the state after the output is set to a value: the clamped value cached, its code's frame sent, both lines at 1. -/
def State.outputWritten (s : State) (value : PhysNum) : State :=
  { s with
    clk := high, dat := high
    outCache := some (clampToRange s.cfg value)
    trace := s.trace ++ transmitEvents s.cfg (outputCode s.cfg (clampToRange s.cfg value))
    seq := .idle, answer := some ⟨.ok, .none⟩ }

/-- R71: the one frame of the code, then the cache write and the answer. -/
theorem run_writeOutputProc {s : State} (hw : configWf s.cfg = true) (value : PhysNum) :
    (writeOutputProc value s).run s = s.outputWritten value := by
  rw [writeOutputProc, run_transmit hw, Proc.run_done]
  rfl

theorem exec_writeOutput {s : State} (hw : configWf s.cfg = true) :
    exec .writeOutput s = .next (s.outputWritten s.valueIn) := by
  rw [exec_eq_perform, perform_of_wf hw, procOf, run_writeOutputProc hw]

theorem exec_writeDigitalOutput {s : State} (hw : configWf s.cfg = true) (b : Bit) :
    exec (.writeDigitalOutput b) s = .next (s.outputWritten (if b = high then s.cfg.maxVal else s.cfg.minVal)) := by
  rw [exec_eq_perform, perform_of_wf hw, procOf, writeDigitalOutputProc, run_writeOutputProc hw]

/-- R71: the rule's example does not depend on the PinMap. -/
theorem outputCode_five_of_ten (p : PinMap) : outputCode { minVal := 0, maxVal := 10, pins := p } 5 = 2048 := by
  have hpins : outputCode { minVal := 0, maxVal := 10, pins := p } 5 = outputCode Config.standard 5 := rfl
  have hq : affineCode Config.standard 5 = (2048 : Nat) := by
    norm_num [affineCode, Config.standard, Constants.tableP1]
  have hcode := outputCode_toNat_of_mem (c := Config.standard) (v := 5) (by decide) (by decide) (by decide)
  rw [hq, Int.floor_natCast] at hcode
  rw [hpins]
  exact BitVec.eq_of_toNat_eq (Int.ofNat_inj.1 hcode)

/-- Settles O18: the next state is `State.outputWritten`; the corner cases are the output transform at the two ends of the
Range and on the step below maxVal. -/
theorem writeOutputSendsTheClampedValue : Obligations.WriteOutputSendsTheClampedValue := by
  refine ⟨fun s hw => ⟨by decide, length_transmitEvents _ _, exec_writeOutput hw, fun h => ?_, fun h => ?_,
    fun hl hu => ?_⟩, fun w hl hu => decode_writeOutput_nonzero_illegal hl hu, outputCode_five_of_ten, by decide⟩
  · rw [clampToRange_of_le_minVal hw h]
    exact ⟨rfl, outputCode_minVal_toNat hw⟩
  · rw [clampToRange_of_maxVal_le hw h]
    exact ⟨rfl, outputCode_maxVal_toNat hw⟩
  · rw [clampToRange_of_mem ((minVal_le_maxVal_sub_codeStep hw).trans hl) hu.le]
    exact outputCode_toNat_within_step_of_maxVal hw hl hu

/-- R72: both values WRITE_DIGITAL_OUTPUT sends lie in the Range, so no clamp changes them. -/
theorem clampToRange_fullScale {c : Config} (hw : configWf c = true) (b : Bit) :
    clampToRange c (if b = high then c.maxVal else c.minVal) = if b = high then c.maxVal else c.minVal := by
  split
  · exact clampToRange_of_maxVal_le hw le_rfl
  · exact clampToRange_of_le_minVal hw le_rfl

theorem outputCode_fullScale {c : Config} (hw : configWf c = true) (b : Bit) :
    outputCode c (if b = high then c.maxVal else c.minVal) =
      BitVec.ofNat 12 (if b = high then c.consts.codeMax else c.consts.codeMin) := by
  split
  · rw [← outputCode_maxVal_toNat hw, BitVec.ofNat_toNat, BitVec.setWidth_eq]
  · rw [← outputCode_minVal_toNat hw, BitVec.ofNat_toNat, BitVec.setWidth_eq]

/-- Settles O19: both commands leave `State.outputWritten` of the same value, an end of the Range, which no clamp
changes (`clampToRange_fullScale`) and whose code is CODE_MAX or CODE_MIN (`outputCode_fullScale`). -/
theorem writeDigitalOutputIsFullScale : Obligations.WriteDigitalOutputIsFullScale := by
  refine ⟨fun b s hw => ⟨by cases b <;> decide, ?_, ?_⟩,
    fun w hl hu => decode_writeDigitalOutput_above_one_illegal hl hu, by decide⟩
  · rw [exec_writeDigitalOutput hw, State.outputWritten, clampToRange_fullScale hw, outputCode_fullScale hw]
  · rw [exec_writeDigitalOutput hw,
      exec_writeOutput (s := { s with valueIn := if b = high then s.cfg.maxVal else s.cfg.minVal }) hw]
    rfl

end Sys2Proof.Machine
end

section
/-! The index operands of the conditioner's commands: the words that carry them and the entries they name
(spec/30_encoding.md R53, spec/42_input_conditioner.md R74). -/

namespace Sys2Proof

/-- R51: the operand field of a word is or-ed onto its opcode. -/
theorem wordOf_eq_or (op : BitVec 4) (opd : BitVec 12) : wordOf op opd = wordOf op 0 ||| opd.setWidth 16 := by
  have hzero : (0 : BitVec 12).setWidth' (show 12 ≤ 4 + 12 by decide) = 0#(4 + 12) := rfl
  rw [wordOf, wordOf, BitVec.append_def, BitVec.append_def, hzero, BitVec.or_zero]
  rfl

/-- R53 form IDX12: in a row that takes an index, `op << 12 | idx[11:0]` decodes to the row's command of `idx`. -/
theorem decode_idx12_word {op : BitVec 4} {f : Int → Instr} (hrow : ∀ opd, decode (wordOf op opd) = decodeIdx opd f)
    {n : Int} (hl : -2048 ≤ n) (hu : n ≤ 2047) :
    decode (wordOf op 0 ||| (BitVec.ofInt 12 n).setWidth 16) = .command (f n) := by
  have hn : sext12 (BitVec.ofInt 12 n) = n := sext12_idx12Field (by simp [idx12Wf, hl, hu])
  rw [← wordOf_eq_or, hrow, decodeIdx, hn]

/-! The four rows of Table E1 that take an index. -/

theorem decode_wordOf_isConnected (opd : BitVec 12) : decode (wordOf 0x4 opd) = decodeIdx opd .isConnected := by
  simp [decode]

theorem decode_wordOf_readAnalog (opd : BitVec 12) : decode (wordOf 0x5 opd) = decodeIdx opd .readAnalog := by
  simp [decode]

theorem decode_wordOf_readDigital (opd : BitVec 12) : decode (wordOf 0x6 opd) = decodeIdx opd .readDigital := by
  simp [decode]

theorem decode_wordOf_readDip (opd : BitVec 12) : decode (wordOf 0xA opd) = decodeIdx opd .readDip := by
  simp [decode]

end Sys2Proof

namespace Sys2Proof.Machine

/-- Settles O20: the clamped index is `clampCh_eq` and `clampDip_eq`; with NUM_CHANNELS = 6 and NUM_DIPS = 2 the cases
are arithmetic on that formula. -/
theorem indexClamping : Obligations.IndexClamping := by
  intro c n hw
  have hch := clampCh_eq hw n
  have hdip := clampDip_eq hw n
  refine ⟨hch, hdip, fun hP1 => ?_⟩
  have hchannels : c.consts.numChannels = 6 := by rw [hP1]; rfl
  have hdips : c.consts.numDips = 2 := by rw [hP1]; rfl
  omega

end Sys2Proof.Machine
end

section
/-! The input mappings: a raw sample as a fraction of a span, and the mapping of each line in its terms
(spec/42_input_conditioner.md R76 to R78). -/

namespace Sys2Proof.Machine

/-- R76, R77: how far a sample lies along the span that begins at `offset`; 0 at its beginning and 1 at its end. -/
def spanFraction (offset : Int) (span : Nat) (r : Raw10) : PhysNum := ((r.val : PhysNum) - offset) / span

section SpanFraction

variable {offset : Int} {span : Nat} {r : Raw10}

theorem spanFraction_nonpos (h : (r.val : Int) ≤ offset) : spanFraction offset span r ≤ 0 := by
  have hr : (r.val : PhysNum) ≤ offset := by exact_mod_cast h
  exact div_nonpos_of_nonpos_of_nonneg (sub_nonpos.2 hr) (Nat.cast_nonneg span)

theorem spanFraction_nonneg (h : offset ≤ (r.val : Int)) : 0 ≤ spanFraction offset span r := by
  have hr : (offset : PhysNum) ≤ r.val := by exact_mod_cast h
  exact div_nonneg (sub_nonneg.2 hr) (Nat.cast_nonneg span)

theorem one_le_spanFraction (hspan : 0 < span) (h : offset + span ≤ (r.val : Int)) :
    1 ≤ spanFraction offset span r := by
  have hr : (offset : PhysNum) + span ≤ r.val := by exact_mod_cast h
  rw [spanFraction, one_le_div (Nat.cast_pos.2 hspan)]
  linarith

theorem spanFraction_le_one (hspan : 0 < span) (h : (r.val : Int) ≤ offset + span) :
    spanFraction offset span r ≤ 1 := by
  have hr : (r.val : PhysNum) ≤ offset + span := by exact_mod_cast h
  rw [spanFraction, div_le_one (Nat.cast_pos.2 hspan)]
  linarith

end SpanFraction

section Mappings

variable {c : Config} {r : Raw10}

/-- R76: the generic-channel mapping lays the sample's fraction of the standard span along the Range. -/
theorem physStd_eq_clamp (c : Config) (r : Raw10) :
    physStd c r = clamp (c.minVal + (c.maxVal - c.minVal) * spanFraction c.consts.stdOffset c.consts.stdSpan r)
      c.minVal c.maxVal := by
  rw [physStd, spanFraction, mul_div_assoc, Int.cast_sub, Int.cast_natCast]

theorem physStd_of_le_offset (hw : configWf c = true) (h : (r.val : Int) ≤ c.consts.stdOffset) :
    physStd c r = c.minVal := by
  have hrange := configWf.range hw
  have hfrac := mul_nonpos_of_nonneg_of_nonpos (sub_nonneg.2 hrange.le)
    (spanFraction_nonpos (span := c.consts.stdSpan) h)
  rw [physStd_eq_clamp, clamp_of_le hrange.le (by linarith)]

theorem physStd_of_span_end_le (hw : configWf c = true) (h : c.consts.stdOffset + c.consts.stdSpan ≤ (r.val : Int)) :
    physStd c r = c.maxVal := by
  have hrange := configWf.range hw
  obtain ⟨-, -, hspan, -⟩ := configWf.relations hw
  have hfrac := le_mul_of_one_le_right (sub_nonneg.2 hrange.le) (one_le_spanFraction hspan h)
  rw [physStd_eq_clamp, clamp_of_ge hrange.le (by linarith)]

theorem physStd_of_mem_span (hw : configWf c = true) (hl : c.consts.stdOffset ≤ (r.val : Int))
    (hu : (r.val : Int) ≤ c.consts.stdOffset + c.consts.stdSpan) :
    physStd c r = c.minVal + (c.maxVal - c.minVal) * spanFraction c.consts.stdOffset c.consts.stdSpan r := by
  have hrange := sub_nonneg.2 (configWf.range hw).le
  obtain ⟨-, -, hspan, -⟩ := configWf.relations hw
  have hlo := mul_nonneg hrange (spanFraction_nonneg (span := c.consts.stdSpan) hl)
  have hhi := mul_le_of_le_one_right hrange (spanFraction_le_one hspan hu)
  rw [physStd_eq_clamp, clamp_of_mem (by linarith) (by linarith)]

/-- R77: the master-line mapping is the sample's fraction of the master span. -/
theorem unitMaster_eq_clamp (c : Config) (r : Raw10) :
    unitMaster c r = clamp (spanFraction c.consts.masterOffset c.consts.masterSpan r) 0 1 := by
  rw [unitMaster, spanFraction, Int.cast_sub, Int.cast_natCast]

theorem unitMaster_of_le_offset (h : (r.val : Int) ≤ c.consts.masterOffset) : unitMaster c r = 0 := by
  rw [unitMaster_eq_clamp, clamp_of_le zero_le_one (spanFraction_nonpos h)]

theorem unitMaster_of_span_end_le (hw : configWf c = true)
    (h : c.consts.masterOffset + c.consts.masterSpan ≤ (r.val : Int)) : unitMaster c r = 1 := by
  obtain ⟨-, -, -, hspan, -⟩ := configWf.relations hw
  rw [unitMaster_eq_clamp, clamp_of_ge zero_le_one (one_le_spanFraction hspan h)]

theorem unitMaster_of_mem_span (hw : configWf c = true) (hl : c.consts.masterOffset ≤ (r.val : Int))
    (hu : (r.val : Int) ≤ c.consts.masterOffset + c.consts.masterSpan) :
    unitMaster c r = spanFraction c.consts.masterOffset c.consts.masterSpan r := by
  obtain ⟨-, -, -, hspan, -⟩ := configWf.relations hw
  rw [unitMaster_eq_clamp, clamp_of_mem (spanFraction_nonneg hl) (spanFraction_le_one hspan hu)]

theorem unitPot_nonneg (c : Config) (r : Raw10) : 0 ≤ unitPot c r := div_nonneg (Nat.cast_nonneg _) (Nat.cast_nonneg _)

/-- R78: no clamp is needed while POT_DIVISOR is no less than the sample. -/
theorem unitPot_le_one (h : r.val ≤ c.consts.potDivisor) : unitPot c r ≤ 1 :=
  div_le_one_of_le₀ (Nat.cast_le.2 h) (Nat.cast_nonneg _)

end Mappings

/-- Settles O21: `physStd_eq_clamp` is the formula; the sample's fraction of the span is at most 0, at least 1 or between,
which gives the three pieces, and Table P1 puts the span at 51..973. -/
theorem genericChannelMapping : Obligations.GenericChannelMapping := by
  intro c r hw
  have hmem := physStd_of_mem_span (r := r) hw
  simp only [spanFraction, ← mul_div_assoc] at hmem
  refine ⟨?_, physStd_of_le_offset hw, physStd_of_span_end_le hw, hmem, fun hP1 => ?_⟩
  · rw [physStd_eq_clamp, spanFraction, ← mul_div_assoc, clamp]
  · have hoffset : c.consts.stdOffset = 51 := by rw [hP1]; rfl
    have hspan : c.consts.stdSpan = 922 := by rw [hP1]; rfl
    refine ⟨fun h => physStd_of_le_offset hw (by omega), fun h => physStd_of_span_end_le hw (by omega),
      fun hl hu => ?_⟩
    rw [hmem (by omega) (by omega), hoffset, hspan, Int.cast_ofNat, Nat.cast_ofNat]

/-- Settles O22: the master line as O21, with the span at 102..921 in Table P1; the potentiometer mapping is its own
formula, and every sample is at most 1023. -/
theorem unitMappings : Obligations.UnitMappings := by
  intro c r hw
  refine ⟨?_, unitMaster_of_le_offset, unitMaster_of_span_end_le hw, unitMaster_of_mem_span hw, rfl, unitPot_nonneg c r,
    unitPot_le_one, fun hP1 => ?_⟩
  · rw [unitMaster_eq_clamp, spanFraction, clamp]
  · have hoffset : c.consts.masterOffset = 102 := by rw [hP1]; rfl
    have hspan : c.consts.masterSpan = 819 := by rw [hP1]; rfl
    have hdivisor : c.consts.potDivisor = 1023 := by rw [hP1]; rfl
    refine ⟨fun h => unitMaster_of_le_offset (by omega), fun h => unitMaster_of_span_end_le hw (by omega),
      fun hl hu => ?_, ?_, unitPot_nonneg c r, unitPot_le_one (by omega)⟩
    · rw [unitMaster_of_mem_span hw (by omega) (by omega), spanFraction, hoffset, hspan, Int.cast_ofNat,
        Nat.cast_ofNat]
    · rw [unitPot, hdivisor, Nat.cast_ofNat]

end Sys2Proof.Machine
end

section
/-! The nine read commands of the Signal Conditioner (spec/42_input_conditioner.md R79 to R88). -/

namespace Sys2Proof.Machine

/-- R90: on a well-formed configuration a command answers the state its primitives lead to. -/
theorem exec_of_wf {s : State} (hw : configWf s.cfg = true) (i : Instr) : exec i s = .next ((procOf i s).run s) :=
  exec_eq_next.2 ⟨hw, rfl⟩

/-! Commands that take one sample and no more. -/

/-- Settles O23: one sample of the clamped channel's line, then the answer with no cache write. -/
theorem isConnectedTestsOneSample : Obligations.IsConnectedTestsOneSample := by
  intro ch s hw
  refine ⟨decode_idx12_word decode_wordOf_isConnected, ?_⟩
  rw [exec_of_wf hw, procOf, isConnectedProc, Proc.run_sample, Proc.run_done]
  rfl

/-- Settles O26: one sample of the potentiometer line, whose mapping is cached and answered. -/
theorem readPotScalesAndCaches : Obligations.ReadPotScalesAndCaches := by
  intro s hw
  refine ⟨by decide, ?_⟩
  rw [exec_of_wf hw, procOf, readPotProc, Proc.run_sample, Proc.run_done]
  rfl

/-- Settles O27: one sample of the master analog line, then the answer with no cache write. -/
theorem isMasterConnectedTestsOneSample : Obligations.IsMasterConnectedTestsOneSample := by
  intro s hw
  refine ⟨by decide, ?_⟩
  rw [exec_of_wf hw, procOf, isMasterConnectedProc, Proc.run_sample, Proc.run_done]
  rfl

/-! Commands whose first sample is a connection test. -/

/-- Settles O24: the three cases of the checked sample (`run_checkedSample_disconnected`, `_once`, `_twice`), each ending
in the same cache write and answer. -/
theorem readAnalogMapsAndCaches : Obligations.ReadAnalogMapsAndCaches := by
  rintro ch s s₁ hw rfl
  rw [exec_of_wf hw, procOf, readAnalogProc]
  refine ⟨decode_idx12_word decode_wordOf_readAnalog, fun h => ?_, fun h hr => ?_, fun h hr => ?_⟩
  · rw [run_checkedSample_disconnected h, Proc.run_done]
    rfl
  · rw [run_checkedSample_once h hr, Proc.run_done]
    rfl
  · rw [run_checkedSample_twice h hr, Proc.run_done]
    rfl

/-- Settles O28: the three cases of the checked sample on the master line, each ending in the answer with no cache
write. -/
theorem readMasterMapsWithoutCache : Obligations.ReadMasterMapsWithoutCache := by
  rintro s s₁ hw rfl
  rw [exec_of_wf hw, procOf, readMasterProc]
  refine ⟨by decide, fun h => ?_, fun h hr => ?_, fun h hr => ?_⟩
  · rw [run_checkedSample_disconnected h, Proc.run_done]
    rfl
  · rw [run_checkedSample_once h hr, Proc.run_done]
    rfl
  · rw [run_checkedSample_twice h hr, Proc.run_done]
    rfl

/-- R75: the connection predicate of a generic channel. -/
theorem jackConnected_iff (c : Config) (r : Raw10) : jackConnected c r = true ↔ r.val < c.consts.jackThreshold :=
  decide_eq_true_iff

/-- Settles O25: the outcome of the analog test chooses between the answer 0 and the digital read. -/
theorem readDigitalReadsOnlyWhenConnected : Obligations.ReadDigitalReadsOnlyWhenConnected := by
  rintro ch s s₁ hw rfl
  rw [exec_of_wf hw, procOf, readDigitalProc, Proc.run_sample]
  refine ⟨decode_idx12_word decode_wordOf_readDigital, fun h => ?_, fun h => ?_⟩
  · rw [if_neg (mt (jackConnected_iff _ _).1 h.not_gt), Proc.run_done]
    rfl
  · rw [if_pos ((jackConnected_iff _ _).2 h), Proc.run_read, Proc.run_done]
    rfl

/-! Switch reads: one unconditional read of an active-low line. -/

/-- R14: the logical value of an active-low line is whether its raw level is 0. -/
theorem activeLow_eq_decide (d : Bit) : activeLow d = decide (d = low) := by
  cases d <;> rfl

/-- R86 to R88: the next state of a command that reads one active-low line and answers its logical value. -/
theorem exec_of_activeLow_read {s : State} (hw : configWf s.cfg = true) {i : Instr} {line : LineId}
    (hproc : procOf i s = .read line fun d => .done .nothing (.bool (activeLow d))) :
    exec i s = .next { s with
      trace := s.trace ++ [.read line s.nextBit]
      digitalIn := s.digitalIn.tail, draws := s.draws + 1, seq := .idle
      answer := some ⟨.ok, .bool (decide (s.nextBit = low))⟩ } := by
  rw [exec_of_wf hw, hproc, Proc.run_read, Proc.run_done, activeLow_eq_decide]
  rfl

/-- Settles O29: READ_DIP is an active-low read of the clamped DIP line. -/
theorem readDipIsActiveLow : Obligations.ReadDipIsActiveLow :=
  fun _ _ hw => ⟨decode_idx12_word decode_wordOf_readDip, exec_of_activeLow_read hw rfl⟩

/-- Settles O30: READ_SWITCH is an active-low read of the push switch's line. -/
theorem readSwitchIsActiveLow : Obligations.ReadSwitchIsActiveLow :=
  fun _ hw => ⟨by decide, exec_of_activeLow_read hw rfl⟩

/-- Settles O31: READ_MASTER_SWITCH is an active-low read of the master switch's line. -/
theorem readMasterSwitchIsActiveLow : Obligations.ReadMasterSwitchIsActiveLow :=
  fun _ hw => ⟨by decide, exec_of_activeLow_read hw rfl⟩

end Sys2Proof.Machine
end

section
/-! SNAPSHOT and the answer to an illegal word (spec/43_diagnostic_and_control.md R91, R92). -/

namespace Sys2Proof.Machine

/-- R91: SNAPSHOT has no primitive to perform, so its one effect is the answer. -/
theorem exec_snapshot {s : State} (hw : configWf s.cfg = true) :
    exec .snapshot s = .next { s with seq := .idle, answer := some ⟨.ok, .snap (snapshotOf s)⟩ } := by
  rw [exec_of_wf hw, procOf, snapshotProc, Proc.run_done]
  rfl

/-- R24, R91: Reset leaves every entry unset. -/
theorem snapshotOf_performReset (s : State) :
    snapshotOf s.performReset = { out := none, ins := Vector.replicate 6 none, pot := none } := by
  simp only [snapshotOf, State.performReset_outCache, State.performReset_insCache, State.performReset_potCache]

/-- Settles O36: `exec_snapshot` is the first clause; after Reset the sequencer is Idle already and every entry unset
(`snapshotOf_performReset`). -/
theorem snapshotReportsTheCaches : Obligations.SnapshotReportsTheCaches := by
  refine ⟨fun s hw => ⟨by decide, exec_snapshot hw⟩, fun s hw => ?_⟩
  have hreset : configWf s.performReset.cfg = true := by rwa [State.performReset_cfg]
  rw [exec_snapshot hreset, snapshotOf_performReset, ← State.performReset_seq s]

section Accept

variable {accept : Instr → State → Host.Outcome State Fault Refusal} {s : State}

/-- R90: a running, Idle instance takes the next command presented. -/
theorem stepWith_idle (hw : configWf s.cfg = true) (hboot : s.boot = .running) (hidle : s.seq = .idle) :
    stepWith accept s = acceptNext accept s := by
  rw [stepWith_running hw hboot, hidle]

/-- R92: an illegal word is answered and taken, without a call of `accept`. -/
theorem acceptNext_illegal {req : Request} {waiting : List Request} {why : IllegalWord}
    (hinbox : s.inbox = req :: waiting) (hword : decode req.word = .illegal why) :
    acceptNext accept s = .next { s.answerIllegal with inbox := waiting } := by
  simp only [acceptNext, hinbox, hword]

end Accept

/-- Settles O37: the step is `acceptNext` (`stepWith_idle`), which leaves an illegal word to `State.answerIllegal`
before VALUE_IN is taken over (`acceptNext_illegal`). -/
theorem illegalWordOnlyAnswers : Obligations.IllegalWordOnlyAnswers := by
  intro s req waiting why hw hboot hidle hinbox hword
  rw [step, stepWith_idle hw hboot hidle, acceptNext_illegal hinbox hword]
  rfl

end Sys2Proof.Machine
end

section
/-! The command word: the operand forms read backwards, and with them decoding, encoding and Table E1
(spec/30_encoding.md section 2). -/

namespace Sys2Proof

section Fields

variable {w : CmdWord} {opd : BitVec 12} {i j : Instr} {why : IllegalWord}

/-! What each operand form of R53 answers. -/

theorem decodeIdx_idx12Field {n : Int} (h : idx12Wf n = true) (f : Int → Instr) :
    decodeIdx (idx12Field n) f = .command (f n) := by
  rw [decodeIdx, sext12_idx12Field h]

theorem decodeNone_eq_command : decodeNone opd i = .command j ↔ opd = 0 ∧ i = j := by
  unfold decodeNone
  split <;> simp_all

theorem decodeNone_eq_illegal : decodeNone opd i = .illegal why ↔ opd ≠ 0 ∧ .operandBitsNotZero = why := by
  unfold decodeNone
  split <;> simp_all

/-- R53 form BIT: with opd[11:1] zero the field is 0 or 1, as opd[0] says. -/
theorem eq_bitField_of_high_zero (h : opd.extractLsb' 1 11 = 0) : opd = if opd.getLsbD 0 then 1 else 0 := by
  have hz := congrArg BitVec.toNat h
  simp only [BitVec.extractLsb'_toNat, Nat.shiftRight_eq_div_pow, BitVec.ofNat_eq_ofNat, BitVec.toNat_ofNat] at hz
  have hlt := opd.isLt
  have hopd : opd = 0 ∨ opd = 1 := by
    rcases Nat.lt_or_ge opd.toNat 1 with h0 | h1
    · exact .inl (BitVec.eq_of_toNat_eq (by simp; omega))
    · exact .inr (BitVec.eq_of_toNat_eq (by simp; omega))
  rcases hopd with rfl | rfl <;> rfl

theorem decodeBit_eq_command {f : Bit → Instr} :
    decodeBit opd f = .command j ↔ opd.extractLsb' 1 11 = 0 ∧ f (opd.getLsbD 0) = j := by
  unfold decodeBit
  split <;> simp_all

theorem decodeBit_eq_illegal {f : Bit → Instr} :
    decodeBit opd f = .illegal why ↔ opd.extractLsb' 1 11 ≠ 0 ∧ .operandBitsNotZero = why := by
  unfold decodeBit
  split <;> simp_all

/-- R11, R53: the two's complement reading of a field is an index in range, and the field carries it. -/
theorem idx12Wf_sext12 (opd : BitVec 12) : idx12Wf (sext12 opd) = true := by
  have hl := BitVec.le_toInt opd
  have hu := BitVec.toInt_lt (x := opd)
  exact Bool.and_eq_true_iff.2 ⟨decide_eq_true hl, decide_eq_true (Int.le_of_lt_add_one hu)⟩

theorem idx12Field_sext12 (opd : BitVec 12) : idx12Field (sext12 opd) = opd := BitVec.ofInt_toInt

/-! Decoding after encoding. -/

theorem decode_encode (h : i.wf = true) : decode (encode i) = .command i := by
  cases i with
  | transmit code => exact Machine.decode_encode_transmit code
  | writeDigitalOutput b => cases b <;> rfl
  | isConnected n | readAnalog n | readDigital n | readDip n =>
    simp [encode, decode, decodeIdx_idx12Field h]
  | writeOutput | readPot | isMasterConnected | readMaster | readSwitch | readMasterSwitch | snapshot => rfl

/-! Encoding after decoding, one lemma per operand form: a row's word, read back from its two fields. -/

theorem word_eq_of_opField {op : BitVec 4} (hop : (opField w).toNat = op.toNat) : w = wordOf op (opdField w) := by
  rw [← BitVec.eq_of_toNat_eq hop, wordOf_fields]

/-- R53 form NONE. -/
theorem encode_of_decodeNone (op : BitVec 4) (hop : (opField w).toNat = op.toNat) (hi : encode i = wordOf op 0)
    (hwf : i.wf = true) (h : decodeNone (opdField w) i = .command j) : j.wf = true ∧ encode j = w := by
  obtain ⟨hopd, rfl⟩ := decodeNone_eq_command.1 h
  exact ⟨hwf, by rw [hi, word_eq_of_opField hop, hopd]⟩

/-- R53 form IDX12. -/
theorem encode_of_decodeIdx (op : BitVec 4) {f : Int → Instr} (hop : (opField w).toNat = op.toNat)
    (hf : ∀ n, encode (f n) = wordOf op (idx12Field n)) (hwf : ∀ n, (f n).wf = idx12Wf n)
    (h : decodeIdx (opdField w) f = .command j) : j.wf = true ∧ encode j = w := by
  cases h
  exact ⟨by rw [hwf, idx12Wf_sext12], by rw [hf, idx12Field_sext12, ← word_eq_of_opField hop]⟩

theorem encode_of_decode (h : decode w = .command i) : i.wf = true ∧ encode i = w := by
  unfold decode at h
  split at h
  next hop => cases h; exact ⟨rfl, (word_eq_of_opField (op := 0x1) hop).symm⟩
  next hop => exact encode_of_decodeNone 0x2 hop rfl rfl h
  next hop =>
    obtain ⟨hopd, rfl⟩ := decodeBit_eq_command.1 h
    exact ⟨rfl, by rw [encode, ← eq_bitField_of_high_zero hopd, ← word_eq_of_opField (op := 0x3) hop]⟩
  next hop => exact encode_of_decodeIdx 0x4 hop (fun _ => rfl) (fun _ => rfl) h
  next hop => exact encode_of_decodeIdx 0x5 hop (fun _ => rfl) (fun _ => rfl) h
  next hop => exact encode_of_decodeIdx 0x6 hop (fun _ => rfl) (fun _ => rfl) h
  next hop => exact encode_of_decodeNone 0x7 hop rfl rfl h
  next hop => exact encode_of_decodeNone 0x8 hop rfl rfl h
  next hop => exact encode_of_decodeNone 0x9 hop rfl rfl h
  next hop => exact encode_of_decodeIdx 0xA hop (fun _ => rfl) (fun _ => rfl) h
  next hop => exact encode_of_decodeNone 0xB hop rfl rfl h
  next hop => exact encode_of_decodeNone 0xC hop rfl rfl h
  next hop => exact encode_of_decodeNone 0xD hop rfl rfl h
  next => cases h

/-! Table E1: a row selects a word by its opcode and the operand bits its mask keeps. -/

theorem wordOf_inj {op op' : BitVec 4} {opd' : BitVec 12} (h : wordOf op opd = wordOf op' opd') :
    op = op' ∧ opd = opd' := by
  have hop := congrArg opField h
  have hopd := congrArg opdField h
  simpa using And.intro hop hopd

theorem selects_wordOf (m : String) (op op' : BitVec 4) (opd mask : BitVec 12) :
    OpcodeRow.selects ⟨m, wordOf op' 0, wordOf 0xF mask⟩ (wordOf op opd) = decide (op = op' ∧ opd &&& mask = 0) := by
  have h15 : op &&& 0xF = op := BitVec.and_allOnes (x := op)
  have hand : wordOf op opd &&& wordOf 0xF mask = wordOf op (opd &&& mask) := by
    rw [wordOf, wordOf, BitVec.and_append, h15, wordOf]
  rw [OpcodeRow.selects, hand, beq_eq_decide, decide_eq_decide]
  exact ⟨wordOf_inj, fun h => by rw [h.1, h.2]⟩

/-- A mask over the whole operand field, as the rows of form NONE have it. -/
theorem and_opdMask (opd : BitVec 12) : opd &&& 0xFFF#12 = opd := BitVec.and_allOnes

/-- A mask over opd[11:1], as the row of form BIT has it. -/
theorem and_highMask_eq_zero : opd &&& 0xFFE#12 = 0#12 ↔ opd.extractLsb' 1 11 = 0#11 := by
  constructor
  · intro h
    have hhigh : (opd &&& 0xFFE#12).extractLsb' 1 11 = opd.extractLsb' 1 11 := by
      have hmask : (0xFFE#12).extractLsb' 1 11 = BitVec.allOnes 11 := by decide
      rw [BitVec.extractLsb'_and, hmask, BitVec.and_allOnes]
    rw [← hhigh, h]
    rfl
  · intro h
    rw [eq_bitField_of_high_zero h]
    cases opd.getLsbD 0 <;> rfl

/-- Table E1 with each pattern and mask cut into opcode and operand field. -/
theorem tableE1_eq : tableE1 =
    [⟨"TRANSMIT", wordOf 0x1 0, wordOf 0xF 0⟩,
     ⟨"WRITE_OUTPUT", wordOf 0x2 0, wordOf 0xF 0xFFF⟩,
     ⟨"WRITE_DIGITAL_OUTPUT", wordOf 0x3 0, wordOf 0xF 0xFFE⟩,
     ⟨"IS_CONNECTED", wordOf 0x4 0, wordOf 0xF 0⟩,
     ⟨"READ_ANALOG", wordOf 0x5 0, wordOf 0xF 0⟩,
     ⟨"READ_DIGITAL", wordOf 0x6 0, wordOf 0xF 0⟩,
     ⟨"READ_POT", wordOf 0x7 0, wordOf 0xF 0xFFF⟩,
     ⟨"IS_MASTER_CONNECTED", wordOf 0x8 0, wordOf 0xF 0xFFF⟩,
     ⟨"READ_MASTER", wordOf 0x9 0, wordOf 0xF 0xFFF⟩,
     ⟨"READ_DIP", wordOf 0xA 0, wordOf 0xF 0⟩,
     ⟨"READ_SWITCH", wordOf 0xB 0, wordOf 0xF 0xFFF⟩,
     ⟨"READ_MASTER_SWITCH", wordOf 0xC 0, wordOf 0xF 0xFFF⟩,
     ⟨"SNAPSHOT", wordOf 0xD 0, wordOf 0xF 0xFFF⟩] := rfl

theorem opcode_cases (op : BitVec 4) :
    op = 0x0 ∨ op = 0x1 ∨ op = 0x2 ∨ op = 0x3 ∨ op = 0x4 ∨ op = 0x5 ∨ op = 0x6 ∨ op = 0x7 ∨ op = 0x8 ∨ op = 0x9 ∨
      op = 0xA ∨ op = 0xB ∨ op = 0xC ∨ op = 0xD ∨ op = 0xE ∨ op = 0xF := by
  revert op
  decide

end Fields

/-- Settles O1: each operand form reads back the field its encoder writes; an index survives its field because it is in
range. -/
theorem decodeOfEncode : Obligations.DecodeOfEncode := fun _ => decode_encode

/-- Settles O2: each operand form, read backwards, fixes the operand field (`encode_of_decode`). -/
theorem encodeOfDecode : Obligations.EncodeOfDecode := fun _ _ => encode_of_decode

/-- Settles O3: cut into its two fields, a word selects a row by the row's opcode and by the operand bits its mask keeps
(`selects_wordOf`), which are those the row's operand form wants to be zero. -/
theorem decodeSelectsOneTableRow : Obligations.DecodeSelectsOneTableRow := by
  intro w
  rw [← wordOf_fields w, tableE1_eq]
  generalize opField w = op, opdField w = opd
  simp only [List.filter_cons, selects_wordOf, decide_eq_true_eq]
  rcases opcode_cases op with
    rfl | rfl | rfl | rfl | rfl | rfl | rfl | rfl | rfl | rfl | rfl | rfl | rfl | rfl | rfl | rfl
  all_goals
    simp only [decode, opField_wordOf, opdField_wordOf, decodeNone, decodeBit, decodeIdx, decodeCode12]
    simp [and_opdMask, and_highMask_eq_zero, Instr.mnemonic]
  -- The rows of forms NONE and BIT are left: one case for the bits that must be zero, one for the others.
  all_goals split <;> rfl

/-- Settles O4: an opcode either names no row or fixes the operand form, whose illegal fields are
`decodeNone_eq_illegal` and `decodeBit_eq_illegal`; forms IDX12 and CODE12 have none. -/
theorem illegalWordsAreReservedOrNonzero : Obligations.IllegalWordsAreReservedOrNonzero := by
  intro op opd
  rw [← wordOf]
  rcases opcode_cases op with
    rfl | rfl | rfl | rfl | rfl | rfl | rfl | rfl | rfl | rfl | rfl | rfl | rfl | rfl | rfl | rfl
  all_goals simp [decode, decodeNone_eq_illegal, decodeBit_eq_illegal, decodeIdx, decodeCode12]

/-- Settles O5: the seventeen words are closed terms, evaluated one by one. -/
theorem specWordsDecode : Obligations.SpecWordsDecode := by
  unfold Obligations.SpecWordsDecode
  decide

end Sys2Proof
end

section
/-! The assembler: a line written for a command names that command (spec/30_encoding.md R60). -/

namespace Sys2Proof.Machine

/-- R60: a code's decimal value is in 0..4095 and names the code. -/
theorem asmCode_toNat (code : Code12) : asmCode (code.toNat : Int) = some (.transmit code) := by
  have hlt := code.isLt
  rw [asmCode, if_pos (by omega), BitVec.ofInt_natCast, BitVec.ofNat_toNat, BitVec.setWidth_eq]

theorem asmBit_bit (b : Bit) : asmBit (if b then 1 else 0) = some (.writeDigitalOutput b) := by
  cases b <;> rfl

theorem asmIdx_of_wf {n : Int} (h : idx12Wf n = true) (f : Int → Instr) : asmIdx f n = some (f n) := by
  rw [asmIdx, if_pos h]

/-- R60: the line written for a well-formed command names it. -/
theorem asmInstr_disassemble {i : Instr} (h : i.wf = true) (v : PhysNum) : asmInstr (disassemble i v) = some i := by
  cases i with
  | transmit code => exact asmCode_toNat code
  | writeDigitalOutput b => exact asmBit_bit b
  | isConnected n => exact asmIdx_of_wf h .isConnected
  | readAnalog n => exact asmIdx_of_wf h .readAnalog
  | readDigital n => exact asmIdx_of_wf h .readDigital
  | readDip n => exact asmIdx_of_wf h .readDip
  | writeOutput | readPot | isMasterConnected | readMaster | readSwitch | readMasterSwitch | snapshot => rfl

/-- R54, R60: the only line with a value is WRITE_OUTPUT's. -/
theorem asmValue_disassemble (i : Instr) (v : PhysNum) :
    asmValue (disassemble i v).operand = if i = .writeOutput then v else 0 := by
  cases i <;> rfl

/-- Settles O6: the line names the command (`asmInstr_disassemble`) and its VALUE_IN (`asmValue_disassemble`). -/
theorem assembleOfDisassemble : Obligations.AssembleOfDisassemble := by
  intro i v h
  rw [assemble, asmInstr_disassemble h, asmValue_disassemble, Option.map_some]

end Sys2Proof.Machine
end

section
/-! One step, case by case: waiting, serving the command presented first, Reset and refusal
(spec/43_diagnostic_and_control.md R90, spec/70_reset_and_hazards.md R106 to R108, spec/60_exceptions.md R95). -/

namespace Sys2Proof.Machine

section Accept

variable {accept : Instr → State → Host.Outcome State Fault Refusal} {s t : State}

theorem acceptNext_nil (hinbox : s.inbox = []) : acceptNext accept s = .next s := by
  simp only [acceptNext, hinbox]

theorem acceptNext_command {req : Request} {waiting : List Request} {i : Instr} (hinbox : s.inbox = req :: waiting)
    (hword : decode req.word = .command i) :
    acceptNext accept s = accept i { s with inbox := waiting, valueIn := req.valueIn } := by
  simp only [acceptNext, hinbox, hword]

theorem stepWith_of_not_wf (hw : configWf s.cfg = false) : stepWith accept s = .refused .configRefused := by
  simp [stepWith, hw]

theorem stepWith_awaitingReset (hw : configWf s.cfg = true) (hboot : s.boot = .awaitingReset) :
    stepWith accept s = if s.inbox.isEmpty then .next s.performReset else .fault .commandBeforeReset := by
  simp [stepWith, hw, hboot]

/-- R90: all that taking the next command can answer. -/
theorem acceptNext_eq_next (h : acceptNext accept s = .next t) :
    t = s ∨ (∃ waiting, t = { s.answerIllegal with inbox := waiting }) ∨
      ∃ i waiting v, accept i { s with inbox := waiting, valueIn := v } = .next t := by
  cases hinbox : s.inbox with
  | nil =>
    rw [acceptNext_nil hinbox] at h
    cases h
    exact .inl rfl
  | cons req waiting =>
    cases hword : decode req.word with
    | command i =>
      rw [acceptNext_command hinbox hword] at h
      exact .inr (.inr ⟨i, waiting, _, h⟩)
    | illegal why =>
      rw [acceptNext_illegal hinbox hword] at h
      cases h
      exact .inr (.inl ⟨waiting, rfl⟩)

/-- All that a step can answer: Reset, one event of the command in progress, or the next command taken. -/
theorem stepWith_eq_next (h : stepWith accept s = .next t) :
    t = s.performReset ∨
      s.boot = .running ∧ ((∃ i k, continueCommand i k s = .next t) ∨ acceptNext accept s = .next t) := by
  cases hw : configWf s.cfg with
  | false => simp [stepWith_of_not_wf hw] at h
  | true =>
    cases hboot : s.boot with
    | awaitingReset =>
      rw [stepWith_awaitingReset hw hboot] at h
      split at h <;> cases h
      exact .inl rfl
    | running =>
      rw [stepWith_running hw hboot] at h
      cases hseq : s.seq with
      | idle => rw [hseq] at h; exact .inr ⟨rfl, .inr h⟩
      | busy i k => rw [hseq] at h; exact .inr ⟨rfl, .inl ⟨i, k, h⟩⟩

end Accept

section Keeps

variable {i : Instr} {k : Nat} {s t : State}

/-- R15, R26: one event of the command in progress keeps the configuration and the boot position. -/
theorem continueCommand_keeps (h : continueCommand i k s = .next t) : t.cfg = s.cfg ∧ t.boot = s.boot := by
  obtain ⟨p, s', w, r, -, hissue, hc⟩ | ⟨p, p', s', -, hissue, -, hc⟩ | hc := continueCommand_cases i k s
  · obtain ⟨e, -, -, hcfg, hboot, -⟩ := Proc.issue_spec hissue
    rw [hc] at h
    cases h
    exact ⟨by rw [State.finish_cfg, hcfg], by rw [State.finish_boot, hboot]⟩
  · obtain ⟨e, -, -, hcfg, hboot, -⟩ := Proc.issue_spec hissue
    rw [hc] at h
    cases h
    exact ⟨hcfg, hboot⟩
  · simp [hc] at h

/-- R26: all that beginning a command can answer: its completion when it has no event, else Busy(cmd, 0). -/
theorem beginCommand_eq_next (h : beginCommand i s = .next t) :
    t = (procOf i s).run s ∨ t = { s with seq := .busy i 0 } := by
  unfold beginCommand at h
  split at h
  next w r hproc => exact .inl (by rw [hproc]; exact (perform_eq_next.1 h).2)
  next => cases h; exact .inr rfl

theorem beginCommand_keeps_cfg (h : beginCommand i s = .next t) : t.cfg = s.cfg := by
  obtain rfl | rfl := beginCommand_eq_next h
  · exact (Proc.run_keeps _ _).1
  · rfl

/-- R15: a step keeps the configuration if beginning or performing a command does. -/
theorem stepWith_keeps_cfg {accept : Instr → State → Host.Outcome State Fault Refusal}
    (haccept : ∀ i s t, accept i s = .next t → t.cfg = s.cfg) (h : stepWith accept s = .next t) : t.cfg = s.cfg := by
  obtain rfl | ⟨-, ⟨i, k, hc⟩ | ha⟩ := stepWith_eq_next h
  · exact s.performReset_cfg
  · exact (continueCommand_keeps hc).1
  · obtain rfl | ⟨waiting, rfl⟩ | ⟨i, waiting, v, hi⟩ := acceptNext_eq_next ha
    · rfl
    · rfl
    · have hcfg := haccept i _ _ hi
      exact hcfg

/-- R108: no step leads back to before the reset. -/
theorem step_boot (h : step s = .next t) : t.boot = .running := by
  obtain rfl | ⟨hboot, ⟨i, k, hc⟩ | ha⟩ := stepWith_eq_next h
  · exact s.performReset_boot
  · exact (continueCommand_keeps hc).2.trans hboot
  · obtain rfl | ⟨waiting, rfl⟩ | ⟨i, waiting, v, hi⟩ := acceptNext_eq_next ha
    · exact hboot
    · exact hboot
    · exact (exec_keeps hi).2.1.trans hboot

end Keeps

/-- Settles O43: every case of a step keeps the configuration (`stepWith_keeps_cfg`), whether a command is performed at
once (`exec_keeps`) or begun (`beginCommand_keeps_cfg`). -/
theorem configurationNeverChanges : Obligations.ConfigurationNeverChanges := fun _ _ =>
  ⟨stepWith_keeps_cfg fun _ _ _ h => (exec_keeps h).1, stepWith_keeps_cfg fun _ _ _ => beginCommand_keeps_cfg⟩

/-- Settles O50: the two cases of a step that awaits the reset are `stepWith_awaitingReset`; the third clause is
`step_boot`. -/
theorem resetComesFirstAndOnce : Obligations.ResetComesFirstAndOnce := by
  refine ⟨fun s hw hboot hinbox => ?_, fun s hw hboot hinbox => ?_, fun _ _ => step_boot⟩
  · rw [step, stepWith_awaitingReset hw hboot, hinbox]
    rfl
  · rw [step, stepWith_awaitingReset hw hboot, if_neg (mt List.isEmpty_iff.1 hinbox)]

/-- Settles O45: an Idle step takes the request presented first (`acceptNext_command`). -/
theorem stepRunsTheDecodedCommand : Obligations.StepRunsTheDecodedCommand := by
  intro s req waiting i hw hboot hidle hinbox hword
  rw [step, stepWith_idle hw hboot hidle, acceptNext_command hinbox hword]

/-- The 16 bits of a word are all of it. -/
theorem decode_of_decodeTableWord {w : Nat} {i : Instr} (h : decodeTableWord 16 w = some i) :
    decode (BitVec.ofNat 16 (w % 2 ^ 16)) = .command i := by
  rw [decodeTableWord, if_pos (Nat.mod_lt _ (by decide))] at h
  split at h
  next j hj => cases h; exact hj
  next => cases h

/-- Settles O46: the word stands first in the inbox of a running, Idle state, so it is the one served
(`acceptNext_command`), with the VALUE_IN the state held. -/
theorem presentedWordRunsNext : Obligations.PresentedWordRunsNext := by
  intro s w i hw hword
  have hcfg : configWf (s.withFetchWord 16 w).cfg = true := hw
  have hinbox : (s.withFetchWord 16 w).inbox = ⟨BitVec.ofNat 16 (w % 2 ^ 16), s.valueIn⟩ :: s.inbox := rfl
  rw [step, stepWith_idle hcfg rfl rfl, acceptNext_command hinbox (decode_of_decodeTableWord hword)]
  rfl

/-- Settles O48: an Idle step with an empty inbox waits (`acceptNext_nil`). -/
theorem idleBlockWaits : Obligations.IdleBlockWaits := by
  intro s hw hboot hidle hinbox
  rw [step, stepWith_idle hw hboot hidle, acceptNext_nil hinbox]

/-- Settles O49: CLOCK is driven first and DATA last; were they one line, that line's two levels would still both be
high. -/
theorem resetClearsAndDrivesHigh : Obligations.ResetClearsAndDrivesHigh := by
  intro s
  simp [State.performReset, State.drive]

/-- R21: the lines a PinMap lists as inputs. -/
theorem PinMap.mem_inputs {p : PinMap} {line : LineId} :
    line ∈ p.inputs ↔ line ∈ p.ain.toList ∨ line ∈ p.din.toList ∨ line ∈ p.dip.toList ∨
      line = p.pot ∨ line = p.masterAnalog ∨ line = p.sw ∨ line = p.masterSw := by
  simp only [PinMap.inputs, List.mem_append, List.mem_cons, List.not_mem_nil, or_false]
  tauto

theorem pinsWf_iff_lines (p : PinMap) :
    pinsWf p = true ↔ p.clock ≠ p.data ∧ ∀ line ∈ p.inputs, line ≠ p.clock ∧ line ≠ p.data := by
  rw [pinsWf_iff]
  refine and_congr_right fun _ => ⟨fun ⟨hc, hd⟩ line hline => ⟨?_, ?_⟩, fun h => ⟨fun hc => ?_, fun hd => ?_⟩⟩
  · rintro rfl; exact hc hline
  · rintro rfl; exact hd hline
  · exact (h _ hc).1 rfl
  · exact (h _ hd).2 rfl

theorem relationsWf_iff (k : Constants) :
    relationsWf k = true ↔ k.codeMax = k.codeMin + k.codeSpan ∧ 0 < k.codeSpan ∧ 0 < k.stdSpan ∧ 0 < k.masterSpan ∧
      0 < k.potDivisor ∧ (1 ≤ k.jackThreshold ∧ k.jackThreshold ≤ 1024) ∧
      1 ≤ k.masterThreshold ∧ k.masterThreshold ≤ 1024 := by
  simp only [relationsWf, Bool.and_eq_true, decide_eq_true_eq, and_assoc]

theorem shapesWf_iff (k : Constants) :
    shapesWf k = true ↔ k.codeBits = 12 ∧ k.codeMax < 4096 ∧ k.frameSlots = 27 ∧
      (1 ≤ k.numChannels ∧ k.numChannels ≤ 6) ∧ (1 ≤ k.numDips ∧ k.numDips ≤ 2) ∧ k.rawMax ≤ 1023 := by
  have hslots : (frame 0).length = 27 := rfl
  simp only [shapesWf, Bool.and_eq_true, decide_eq_true_eq, and_assoc, hslots]
  refine and_congr_right fun hbits => ?_
  rw [hbits]
  omega

/-- Settles O44: each part of `configWf` in words (`pinsWf_iff_lines`, `relationsWf_iff`, `shapesWf_iff`); the step and
`perform` test it first. -/
theorem illFormedConfigurationRefused : Obligations.IllFormedConfigurationRefused := by
  refine fun s => ⟨?_, fun hw => ⟨stepWith_of_not_wf hw, fun i => ?_⟩⟩
  · rw [configWf_iff, pinsWf_iff_lines, relationsWf_iff, shapesWf_iff]
    simp only [PinMap.mem_inputs]
  · rw [exec_eq_perform, perform_of_not_wf (by simp [hw])]

end Sys2Proof.Machine
end

section
/-! What a command can do, whatever its draws: the events it may issue and the ways it may end
(spec/10_state.md sections 3 and 4, spec/30_encoding.md R58). -/

namespace Sys2Proof.Machine

/-- Every event a sequence of primitives may issue satisfies `E`, and every ending it may reach satisfies `F`, when its
samples are at most `n` (R31). -/
def Proc.All (n : Nat) (E : Event → Prop) (F : CacheWrite → Result → Prop) : Proc → Prop
  | .done w r => F w r
  | .drive line v rest => E (.set line v) ∧ rest.All n E F
  | .wait us rest => E (.delay us) ∧ rest.All n E F
  | .sample line rest => ∀ r : Raw10, r.val ≤ n → E (.sample line r) ∧ (rest r).All n E F
  | .read line rest => ∀ b, E (.read line b) ∧ (rest b).All n E F

/-- `t` is `s` after the events `es`: what the events record and drive (R13, R23, R30), and what they leave alone. -/
structure State.Issued (s : State) (es : List Event) (t : State) : Prop where
  cfg : t.cfg = s.cfg
  trace : t.trace = s.trace ++ es
  levels : (⟨t.clk, t.dat⟩ : Levels) = es.foldl (Levels.after s.cfg.pins) ⟨s.clk, s.dat⟩
  outCache : t.outCache = s.outCache
  insCache : t.insCache = s.insCache
  potCache : t.potCache = s.potCache

theorem State.Issued.refl (s : State) : s.Issued [] s := ⟨rfl, (List.append_nil _).symm, rfl, rfl, rfl, rfl⟩

theorem State.Issued.trans {s t u : State} {es fs : List Event} (h : s.Issued es t) (h' : t.Issued fs u) :
    s.Issued (es ++ fs) u where
  cfg := h'.cfg.trans h.cfg
  trace := by rw [h'.trace, h.trace, List.append_assoc]
  levels := by rw [h'.levels, h.levels, h.cfg, List.foldl_append]
  outCache := h'.outCache.trans h.outCache
  insCache := h'.insCache.trans h.insCache
  potCache := h'.potCache.trans h.potCache

theorem State.issued_drive (s : State) (line : LineId) (v : Bit) : s.Issued [.set line v] (s.drive line v) :=
  ⟨rfl, rfl, rfl, rfl, rfl, rfl⟩
theorem State.issued_wait (s : State) (us : Nat) : s.Issued [.delay us] (s.wait us) := ⟨rfl, rfl, rfl, rfl, rfl, rfl⟩
theorem State.issued_sampled (s : State) (line : LineId) : s.Issued [.sample line s.nextRaw] (s.sampled line) :=
  ⟨rfl, rfl, rfl, rfl, rfl, rfl⟩
theorem State.issued_wasRead (s : State) (line : LineId) : s.Issued [.read line s.nextBit] (s.wasRead line) :=
  ⟨rfl, rfl, rfl, rfl, rfl, rfl⟩

theorem State.nextRaw_le (s : State) : s.nextRaw.val ≤ s.cfg.consts.rawMax := sampleOf_le _ _

/-- `t` is reached from `s` by events that satisfy `E` and an ending that satisfies `F`. -/
def State.EndsIn (s : State) (E : Event → Prop) (F : CacheWrite → Result → Prop) (t : State) : Prop :=
  ∃ es u w r, t = u.finish w r ∧ s.Issued es u ∧ (∀ e ∈ es, E e) ∧ F w r

section Run

variable {E : Event → Prop} {F : CacheWrite → Result → Prop}

theorem State.EndsIn.cons {s s' t : State} {e : Event} (hs : s.Issued [e] s') (he : E e) (h : s'.EndsIn E F t) :
    s.EndsIn E F t := by
  obtain ⟨es, u, w, r, ht, hu, hes, hend⟩ := h
  exact ⟨e :: es, u, w, r, ht, hs.trans hu, List.forall_mem_cons.2 ⟨he, hes⟩, hend⟩

/-- A run issues events its sequence may issue and ends in a way it may end. -/
theorem Proc.endsIn_run {p : Proc} {s : State} (h : p.All s.cfg.consts.rawMax E F) : s.EndsIn E F (p.run s) := by
  induction p generalizing s with
  | done w r => exact ⟨[], s, w, r, rfl, .refl s, by simp, h⟩
  | drive line v rest ih => exact .cons (s.issued_drive line v) h.1 (ih h.2)
  | wait us rest ih => exact .cons (s.issued_wait us) h.1 (ih h.2)
  | sample line rest ih =>
    obtain ⟨he, hrest⟩ := h s.nextRaw s.nextRaw_le
    exact .cons (s.issued_sampled line) he (ih _ hrest)
  | read line rest ih =>
    obtain ⟨he, hrest⟩ := h s.nextBit
    exact .cons (s.issued_wasRead line) he (ih _ hrest)

/-! The procedures that commands share. -/

variable {n : Nat} {c : Config}

theorem all_transmit (hset : ∀ line v, line = c.pins.clock ∨ line = c.pins.data → E (.set line v))
    (hdelay : E (.delay c.consts.holdUs)) {rest : Proc} (hrest : rest.All n E F) (code : Code12) :
    (transmit c code rest).All n E F := by
  have hclock (v) := hset c.pins.clock v (.inl rfl)
  have hdata (v) := hset c.pins.data v (.inr rfl)
  have hslots (bits : List Bit) : (bits.foldr (writeBit c) (stopCondition c rest)).All n E F := by
    induction bits with
    | nil => exact ⟨hclock _, hdelay, hdata _, hdelay, hrest⟩
    | cons b bits ih => exact ⟨hdata b, hclock _, hdelay, hclock _, hdelay, ih⟩
  exact ⟨hdata _, hdelay, hclock _, hslots _⟩

theorem all_checkedSample {line : LineId} {threshold : Nat} {rest : Bool → Raw10 → Proc}
    (hsample : ∀ r, E (.sample line r)) (hrest : ∀ conn r, (rest conn r).All n E F) :
    (checkedSample c line threshold rest).All n E F := by
  intro r _
  refine ⟨hsample r, ?_⟩
  dsimp only
  split
  · split
    · exact fun r' _ => ⟨hsample r', hrest true r'⟩
    · exact hrest true r
  · exact hrest false r

end Run

/-- R23, R29, R44: the events a command may issue: on lines of their own kind, and Set only from the three commands that
drive. -/
def State.MayIssue (s : State) (i : Instr) (e : Event) : Prop :=
  e.onOwnLine s.cfg.pins ∧ (drivesLines i = false → e.isSet = false)

/-- R25, R58: the cache write and the result a command may end with. -/
def State.MayEnd (s : State) (i : Instr) (w : CacheWrite) (r : Result) : Prop :=
  match i with
  | .writeOutput => w = .out (clampToRange s.cfg s.valueIn)
  | .writeDigitalOutput b => w = .out (if b = high then s.cfg.maxVal else s.cfg.minVal)
  | .readAnalog ch => ∃ v, inRange s.cfg v ∧ w = .ins (clampCh s.cfg.consts ch) v ∧ r = .phys v
  | .readPot => ∃ q, (0 ≤ q ∧ (s.cfg.consts.rawMax ≤ s.cfg.consts.potDivisor → q ≤ 1)) ∧ w = .pot q ∧ r = .unit q
  | .readMaster => w = .nothing ∧ ∃ q, (0 ≤ q ∧ q ≤ 1) ∧ r = .unit q
  | .transmit _ | .isConnected _ | .readDigital _ | .isMasterConnected | .readDip _ | .readSwitch
  | .readMasterSwitch | .snapshot => w = .nothing

/-! R76, R77: the clamped mappings stay in their ranges. -/

theorem inRange_minVal {c : Config} (hw : configWf c = true) : inRange c c.minVal := ⟨le_rfl, (configWf.range hw).le⟩

theorem inRange_maxVal {c : Config} (hw : configWf c = true) : inRange c c.maxVal := ⟨(configWf.range hw).le, le_rfl⟩

theorem inRange_clampToRange {c : Config} (hw : configWf c = true) (v : PhysNum) : inRange c (clampToRange c v) :=
  ⟨le_clamp (configWf.range hw).le, clamp_le _ _ _⟩

theorem inRange_physStd {c : Config} (hw : configWf c = true) (r : Raw10) : inRange c (physStd c r) :=
  ⟨le_clamp (configWf.range hw).le, clamp_le _ _ _⟩

theorem unitMaster_mem (c : Config) (r : Raw10) : 0 ≤ unitMaster c r ∧ unitMaster c r ≤ 1 :=
  ⟨le_clamp zero_le_one, clamp_le _ _ _⟩

/-- Every command issues only events, and ends only in ways, that its rules allow. -/
theorem all_procOf {s : State} (hw : configWf s.cfg = true) (i : Instr) :
    (procOf i s).All s.cfg.consts.rawMax (s.MayIssue i) (s.MayEnd i) := by
  have hain (ch : Int) (r : Raw10) : Event.onOwnLine s.cfg.pins (.sample s.cfg.pins.ain[clampCh s.cfg.consts ch] r) :=
    .inl (by simp)
  have hdin (ch : Int) (b : Bit) : Event.onOwnLine s.cfg.pins (.read s.cfg.pins.din[clampCh s.cfg.consts ch] b) :=
    .inl (by simp)
  have hdip (n : Int) (b : Bit) : Event.onOwnLine s.cfg.pins (.read s.cfg.pins.dip[clampDip s.cfg.consts n] b) :=
    .inr (.inl (by simp))
  have hpot (r : Raw10) : Event.onOwnLine s.cfg.pins (.sample s.cfg.pins.pot r) := .inr (.inl rfl)
  have hmaster (r : Raw10) : Event.onOwnLine s.cfg.pins (.sample s.cfg.pins.masterAnalog r) := .inr (.inr rfl)
  have hsw (b : Bit) : Event.onOwnLine s.cfg.pins (.read s.cfg.pins.sw b) := .inr (.inr (.inl rfl))
  have hmasterSw (b : Bit) : Event.onOwnLine s.cfg.pins (.read s.cfg.pins.masterSw b) := .inr (.inr (.inr rfl))
  cases i with
  | transmit code =>
    refine all_transmit (fun _ _ h => ⟨h, nofun⟩) ⟨trivial, nofun⟩ ?_ _
    exact rfl
  | writeOutput =>
    refine all_transmit (fun _ _ h => ⟨h, nofun⟩) ⟨trivial, nofun⟩ ?_ _
    exact rfl
  | writeDigitalOutput b =>
    refine all_transmit (fun _ _ h => ⟨h, nofun⟩) ⟨trivial, nofun⟩ ?_ _
    exact congrArg CacheWrite.out (clampToRange_fullScale hw b)
  | isConnected ch => exact fun r _ => ⟨⟨hain ch r, fun _ => rfl⟩, rfl⟩
  | readAnalog ch =>
    rw [procOf, readAnalogProc]
    refine all_checkedSample (fun r => ⟨hain ch r, fun _ => rfl⟩) fun conn r => ?_
    refine ⟨_, ?_, rfl, rfl⟩
    split
    · exact inRange_physStd hw r
    · exact inRange_minVal hw
  | readDigital ch =>
    refine fun r _ => ⟨⟨hain ch r, fun _ => rfl⟩, ?_⟩
    dsimp only
    split
    · exact fun b => ⟨⟨hdin ch b, fun _ => rfl⟩, rfl⟩
    · exact rfl
  | readPot =>
    exact fun r hr => ⟨⟨hpot r, fun _ => rfl⟩, _, ⟨unitPot_nonneg _ r, fun h => unitPot_le_one (hr.trans h)⟩, rfl, rfl⟩
  | isMasterConnected => exact fun r _ => ⟨⟨hmaster r, fun _ => rfl⟩, rfl⟩
  | readMaster =>
    rw [procOf, readMasterProc]
    refine all_checkedSample (fun r => ⟨hmaster r, fun _ => rfl⟩) fun conn r => ?_
    refine ⟨rfl, _, ?_, rfl⟩
    split
    · exact unitMaster_mem _ r
    · exact ⟨le_rfl, zero_le_one⟩
  | readDip n => exact fun b => ⟨⟨hdip n b, fun _ => rfl⟩, rfl⟩
  | readSwitch => exact fun b => ⟨⟨hsw b, fun _ => rfl⟩, rfl⟩
  | readMasterSwitch => exact fun b => ⟨⟨hmasterSw b, fun _ => rfl⟩, rfl⟩
  | snapshot => exact rfl

/-- All that a command can do, whatever the draws. -/
theorem exec_endsIn {i : Instr} {s t : State} (h : exec i s = .next t) :
    s.EndsIn (s.MayIssue i) (s.MayEnd i) t := by
  obtain ⟨hw, rfl⟩ := exec_eq_next.1 h
  exact Proc.endsIn_run (all_procOf hw i)


/-! R13, R23: events that set no line leave both levels, and the trace of a command is its events. -/

theorem Levels.foldl_after_of_not_set (p : PinMap) (l : Levels) {es : List Event} (h : ∀ e ∈ es, e.isSet = false) :
    es.foldl (Levels.after p) l = l := by
  induction es with
  | nil => rfl
  | cons e es ih =>
    obtain ⟨he, hes⟩ := List.forall_mem_cons.1 h
    have hafter : l.after p e = l := by
      cases e with
      | set line v => cases he
      | delay | sample | read => rfl
    rw [List.foldl_cons, hafter, ih hes]

/-- Settles O39: a command issues only events it may issue (`exec_endsIn`); with no Set among them the levels stay. -/
theorem eventsStayOnTheirLines : Obligations.EventsStayOnTheirLines := by
  intro i s t h
  obtain ⟨es, u, w, r, rfl, hu, hes, -⟩ := exec_endsIn h
  refine ⟨es, by rw [State.finish_trace, hu.trace], fun e he => (hes e he).1, fun hdrives => ?_⟩
  have hquiet : ∀ e ∈ es, e.isSet = false := fun e he => (hes e he).2 hdrives
  have hlevels := hu.levels
  rw [Levels.foldl_after_of_not_set _ _ hquiet, Levels.mk.injEq] at hlevels
  exact ⟨hquiet, by rw [State.finish_clk, hlevels.1], by rw [State.finish_dat, hlevels.2]⟩

/-- R25: what an ending leaves in each cache. -/
theorem State.Issued.finish_caches {s u : State} {es : List Event} (hu : s.Issued es u) (w : CacheWrite) (r : Result) :
    (u.finish w r).outCache = (s.writeCache w).outCache ∧ (u.finish w r).insCache = (s.writeCache w).insCache ∧
      (u.finish w r).potCache = (s.writeCache w).potCache := by
  cases w <;> simp [hu.outCache, hu.insCache, hu.potCache]

/-- Settles O38: a command ends in a way it may end (`exec_endsIn`), which fixes the one entry it writes and what stands
in it. -/
theorem cachesWrittenOnlyByTheirCommands : Obligations.CachesWrittenOnlyByTheirCommands := by
  intro i s t h
  obtain ⟨es, u, w, r, rfl, hu, -, hend⟩ := exec_endsIn h
  obtain ⟨hout, hins, hpot⟩ := hu.finish_caches w r
  rw [hout, hins, hpot, State.finish_answer]
  cases i with
  | writeOutput | writeDigitalOutput b => cases hend; simp
  | readAnalog ch =>
    obtain ⟨v, -, rfl, rfl⟩ := hend
    simpa [Vector.getElem_set, Fin.val_inj, eq_comm] using fun j hne heq => absurd heq hne
  | readPot =>
    obtain ⟨q, -, rfl, rfl⟩ := hend
    simp
  | readMaster => cases hend.1; simp
  | transmit _ | isConnected _ | readDigital _ | isMasterConnected | readDip _ | readSwitch | readMasterSwitch
  | snapshot => cases hend; simp

/-- Settles O32: the value answered is the result the command may end with (`exec_endsIn`), a clamped mapping or, for
READ_POT, a quotient with a divisor no less than the sample. -/
theorem readResultsInRange : Obligations.ReadResultsInRange := by
  intro s t hpotScale
  refine ⟨fun ch h => ?_, fun h => ?_, fun h => ?_⟩
  · obtain ⟨es, u, w, r, rfl, -, -, v, hv, rfl, rfl⟩ := exec_endsIn h
    exact ⟨v, State.finish_answer _ _ _, hv⟩
  · obtain ⟨es, u, w, r, rfl, -, -, q, ⟨hlo, hhi⟩, rfl, rfl⟩ := exec_endsIn h
    exact ⟨q, State.finish_answer _ _ _, hlo, hhi hpotScale⟩
  · obtain ⟨es, u, w, r, rfl, -, -, rfl, q, hq, rfl⟩ := exec_endsIn h
    exact ⟨q, State.finish_answer _ _ _, hq⟩

end Sys2Proof.Machine
end

section
/-! What a command does not read: the recorded levels, the caches, the waiting commands (spec/10_state.md R23, R25,
spec/70_reset_and_hazards.md R113). -/

namespace Sys2Proof.Machine

/-- The state with other recorded levels. -/
def State.withLevels (s : State) (c d : Bit) : State := { s with clk := c, dat := d }

/-- The state with other caches. -/
def State.withCaches (s : State) (o p : Option PhysNum) (n : Vector (Option PhysNum) 6) : State :=
  { s with outCache := o, insCache := n, potCache := p }

/-- R23: the recorded levels take no part in choosing a command's primitives. -/
theorem procOf_withLevels (i : Instr) (s : State) (c d : Bit) : procOf i (s.withLevels c d) = procOf i s := by
  cases i <;> rfl

/-- R25: nor do the caches, SNAPSHOT apart. -/
theorem procOf_withCaches {i : Instr} (h : i ≠ .snapshot) (s : State) (o p : Option PhysNum)
    (n : Vector (Option PhysNum) 6) : procOf i (s.withCaches o p n) = procOf i s := by
  cases i
  case snapshot => exact absurd rfl h
  all_goals rfl

theorem procOf_present (i : Instr) (s : State) (req : Request) : procOf i (s.present req) = procOf i s := by
  cases i <;> rfl

/-- R23: recorded levels pass unread through a sequence that drives no line. -/
theorem Proc.run_withLevels {E : Event → Prop} {F : CacheWrite → Result → Prop} (hE : ∀ e, E e → e.isSet = false)
    {p : Proc} {s : State} (h : p.All s.cfg.consts.rawMax E F) (c d : Bit) :
    p.run (s.withLevels c d) = (p.run s).withLevels c d := by
  induction p generalizing s with
  | done w r => cases w <;> rfl
  | drive line v rest ih => exact nomatch hE _ h.1
  | wait us rest ih => exact ih (s := s.wait us) h.2
  | sample line rest ih => exact ih _ (s := s.sampled line) (h s.nextRaw s.nextRaw_le).2
  | read line rest ih => exact ih _ (s := s.wasRead line) (h s.nextBit).2

theorem Proc.run_present (p : Proc) (s : State) (req : Request) : p.run (s.present req) = (p.run s).present req := by
  induction p generalizing s with
  | done w r => cases w <;> rfl
  | drive line v rest ih => exact ih (s.drive line v)
  | wait us rest ih => exact ih (s.wait us)
  | sample line rest ih => exact ih s.nextRaw (s.sampled line)
  | read line rest ih => exact ih s.nextBit (s.wasRead line)

/-- R25: from other caches a sequence does the same but for the caches it leaves. -/
theorem Proc.run_withCaches (q : Proc) (s : State) (o p : Option PhysNum) (n : Vector (Option PhysNum) 6) :
    ∃ o' p' n', q.run (s.withCaches o p n) = (q.run s).withCaches o' p' n' := by
  induction q generalizing s with
  | done w r =>
    exact ⟨((s.withCaches o p n).writeCache w).outCache, ((s.withCaches o p n).writeCache w).potCache,
      ((s.withCaches o p n).writeCache w).insCache, by cases w <;> rfl⟩
  | drive line v rest ih => exact ih (s.drive line v)
  | wait us rest ih => exact ih (s.wait us)
  | sample line rest ih => exact ih s.nextRaw (s.sampled line)
  | read line rest ih => exact ih s.nextBit (s.wasRead line)

/-- R65, R71, R72: a command that drives the lines is one Transmit and its ending. -/
theorem procOf_of_drivesLines {i : Instr} (hi : drivesLines i = true) (s : State) :
    ∃ code w r, procOf i s = transmit s.cfg code (.done w r) := by
  cases i
  case transmit | writeOutput | writeDigitalOutput => exact ⟨_, _, _, rfl⟩
  all_goals cases hi

/-- R67 item 5: it leaves both lines at 1. -/
theorem busIdle_run_of_drivesLines {i : Instr} (hi : drivesLines i = true) {s : State} (hw : configWf s.cfg = true) :
    ((procOf i s).run s).busIdle := by
  obtain ⟨code, w, r, hproc⟩ := procOf_of_drivesLines hi s
  rw [hproc, run_transmit hw, Proc.run_done]
  exact ⟨State.finish_clk _ w r, State.finish_dat _ w r⟩

/-- R23: wherever the lines stood. -/
theorem run_withLevels_of_drivesLines {i : Instr} (hi : drivesLines i = true) {s : State} (hw : configWf s.cfg = true)
    (c d : Bit) : (procOf i s).run (s.withLevels c d) = (procOf i s).run s := by
  obtain ⟨code, w, r, hproc⟩ := procOf_of_drivesLines hi s
  rw [hproc, run_transmit hw]
  exact run_transmit (s := s.withLevels c d) hw code _

/-- Settles O41: a command that drives ends at 1 on both lines from any levels (`run_withLevels_of_drivesLines`);
through any other the levels pass unread (`Proc.run_withLevels`). -/
theorem drivenLevelsAreNotReadBack : Obligations.DrivenLevelsAreNotReadBack := by
  intro i s c d
  rw [← State.withLevels, exec_eq_perform, exec_eq_perform, procOf_withLevels, mapNext_perform]
  by_cases hw : configWf s.cfg = true
  · rw [if_pos hw, perform_of_wf (s := s.withLevels c d) hw]
    cases hi : drivesLines i with
    | true => rw [run_withLevels_of_drivesLines hi hw, if_pos rfl]
    | false =>
      rw [Proc.run_withLevels (fun e he => he.2 hi) (all_procOf hw i)]
      rfl
  · rw [if_neg hw, perform_of_not_wf (s := s.withLevels c d) hw]

/-- Settles O42: no command but SNAPSHOT chooses its primitives by a cache (`procOf_withCaches`), and the primitives
carry caches along unread (`Proc.run_withCaches`). -/
theorem onlySnapshotReadsTheCaches : Obligations.OnlySnapshotReadsTheCaches := by
  intro i s t o p n hi h
  obtain ⟨hw, rfl⟩ := exec_eq_next.1 h
  obtain ⟨o', p', n', hrun⟩ := (procOf i s).run_withCaches s o p n
  have hexec := exec_of_wf (s := s.withCaches o p n) hw i
  rw [procOf_withCaches hi, hrun] at hexec
  exact ⟨_, hexec, rfl, rfl, rfl, rfl⟩

/-- R113: an event issued does not see the waiting commands. -/
theorem Proc.issue_present (p : Proc) (s : State) (req : Request) :
    p.issue (s.present req) = (p.issue s).map fun q => (q.1, q.2.present req) := by
  cases p <;> rfl

theorem continueCommand_present (i : Instr) (k : Nat) (s : State) (req : Request) :
    continueCommand i k (s.present req) = mapNext (·.present req) (continueCommand i k s) := by
  have hremaining : (s.present req).remaining i k = s.remaining i k := by
    rw [State.remaining, procOf_present]
    rfl
  simp only [continueCommand, hremaining]
  cases s.remaining i k with
  | none => rfl
  | some p =>
    rw [Option.bind_some, Option.bind_some, Proc.issue_present]
    cases p.issue s with
    | none => rfl
    | some q =>
      obtain ⟨p', s'⟩ := q
      cases p' with
      | done w r => cases w <;> rfl
      | drive | wait | sample | read => rfl

theorem perform_present (p : Proc) (s : State) (req : Request) :
    perform p (s.present req) = mapNext (·.present req) (perform p s) := by
  rw [mapNext_perform, perform, Proc.run_present]
  rfl

theorem exec_present (i : Instr) (s : State) (req : Request) :
    exec i (s.present req) = mapNext (·.present req) (exec i s) := by
  rw [exec_eq_perform, exec_eq_perform, procOf_present, perform_present]

theorem beginCommand_present (i : Instr) (s : State) (req : Request) :
    beginCommand i (s.present req) = mapNext (·.present req) (beginCommand i s) := by
  rw [beginCommand, beginCommand, procOf_present]
  cases procOf i s with
  | done w r => exact perform_present _ s req
  | drive | wait | sample | read => rfl

/-- R113: with a command in progress or others waiting, a command presented waits behind them. -/
theorem stepWith_present {accept : Instr → State → Host.Outcome State Fault Refusal}
    (haccept : ∀ i s req, accept i (s.present req) = mapNext (·.present req) (accept i s)) {s : State} (req : Request)
    (hboot : s.boot = .running) (hheld : s.seq ≠ .idle ∨ s.inbox ≠ []) :
    stepWith accept (s.present req) = mapNext (·.present req) (stepWith accept s) := by
  cases hw : configWf s.cfg with
  | false => rw [stepWith_of_not_wf hw, stepWith_of_not_wf (s := s.present req) hw, mapNext]
  | true =>
    rw [stepWith_running hw hboot, stepWith_running (s := s.present req) hw hboot, State.present_seq]
    cases hseq : s.seq with
    | busy i k => exact continueCommand_present i k s req
    | idle =>
      obtain ⟨first, waiting, hinbox⟩ := List.exists_cons_of_ne_nil (hheld.resolve_left (not_not.2 hseq))
      have hpresent : (s.present req).inbox = first :: (waiting ++ [req]) := by
        rw [State.present_inbox, hinbox, List.cons_append]
      dsimp only
      cases hword : decode first.word with
      | illegal why =>
        rw [acceptNext_illegal hinbox hword, acceptNext_illegal hpresent hword]
        rfl
      | command i =>
        rw [acceptNext_command hinbox hword, acceptNext_command hpresent hword]
        exact haccept i { s with inbox := waiting, valueIn := first.valueIn } req

/-- Settles O47: beginning, continuing and performing a command do not see what waits behind it (`stepWith_present`). -/
theorem presentedCommandsAreHeld : Obligations.PresentedCommandsAreHeld := fun _ req hboot hheld =>
  ⟨stepWith_present exec_present req hboot hheld, stepWith_present beginCommand_present req hboot hheld⟩

end Sys2Proof.Machine
end

section
/-! The command boundary: it holds after reset, and serving the command presented first keeps it
(spec/70_reset_and_hazards.md R111, spec/43_diagnostic_and_control.md R90). -/

namespace Sys2Proof.Machine

/-- Settles O52: Reset leaves every cache unset and both lines high; the reset configuration is well-formed. -/
theorem resetIsACommandBoundary : Obligations.ResetIsACommandBoundary where
  wellFormed := by decide
  potScale := by decide
  running := rfl
  idle := rfl
  bus := ⟨rfl, rfl⟩
  caches := by
    refine ⟨fun v h => (nomatch h), fun i v h => ?_, fun p h => (nomatch h)⟩
    rw [State.reset_insCache_getElem] at h
    cases h

/-- R24, R58: a cache write of a value its command can write. -/
def CacheWrite.inRange (c : Config) : CacheWrite → Prop
  | .nothing => True
  | .out u => Machine.inRange c u
  | .ins _ v => Machine.inRange c v
  | .pot p => 0 ≤ p ∧ p ≤ 1

theorem State.cachesInRange.writeCache {s : State} (hs : s.cachesInRange) {w : CacheWrite} (hw : w.inRange s.cfg) :
    (s.writeCache w).cachesInRange := by
  obtain ⟨hout, hins, hpot⟩ := hs
  cases w with
  | nothing => exact ⟨hout, hins, hpot⟩
  | out u => exact ⟨fun v h => Option.some.inj h ▸ hw, hins, hpot⟩
  | pot p => exact ⟨hout, hins, fun q h => Option.some.inj h ▸ hw⟩
  | ins i v =>
    refine ⟨hout, fun j q h => ?_, hpot⟩
    simp only [State.writeCache_ins_insCache, Fin.getElem_fin, Vector.getElem_set] at h
    split at h
    · exact Option.some.inj h ▸ hw
    · exact hins j q h

/-- R24, R58: whatever way a command ends, what it caches is in range. -/
theorem State.MayEnd.inRange {s : State} (hw : configWf s.cfg = true)
    (hscale : s.cfg.consts.rawMax ≤ s.cfg.consts.potDivisor) {i : Instr} {w : CacheWrite} {r : Result}
    (h : s.MayEnd i w r) : w.inRange s.cfg := by
  cases i with
  | writeOutput => cases h; exact inRange_clampToRange hw _
  | writeDigitalOutput b =>
    cases h
    cases b
    · exact inRange_minVal hw
    · exact inRange_maxVal hw
  | readAnalog ch => obtain ⟨v, hv, rfl, -⟩ := h; exact hv
  | readPot => obtain ⟨q, ⟨hlo, hhi⟩, rfl, -⟩ := h; exact ⟨hlo, hhi hscale⟩
  | readMaster => obtain ⟨rfl, -⟩ := h; trivial
  | transmit _ | isConnected _ | readDigital _ | isMasterConnected | readDip _ | readSwitch | readMasterSwitch
  | snapshot => cases h; trivial

section Boundary

variable {s : State}

/-- The waiting commands, VALUE_IN and the answer are no part of a boundary. -/
theorem State.AtBoundary.withPorts (h : s.AtBoundary) (inbox : List Request) (v : PhysNum) (a : Option Answer) :
    { s with inbox := inbox, valueIn := v, answer := a }.AtBoundary :=
  ⟨h.wellFormed, h.potScale, h.running, h.idle, h.bus, h.caches⟩

/-- R111: a command that drives the lines ends at 1 on both; any other leaves them there. -/
theorem State.AtBoundary.exec_busIdle (h : s.AtBoundary) {i : Instr} {t : State} (ht : exec i s = .next t) :
    t.busIdle := by
  cases hi : drivesLines i with
  | true => obtain ⟨-, rfl⟩ := exec_eq_next.1 ht; exact busIdle_run_of_drivesLines hi h.wellFormed
  | false =>
    obtain ⟨es, -, -, hquiet⟩ := eventsStayOnTheirLines i s t ht
    obtain ⟨-, hclk, hdat⟩ := hquiet hi
    exact ⟨hclk.trans h.bus.1, hdat.trans h.bus.2⟩

theorem State.AtBoundary.exec_cachesInRange (h : s.AtBoundary) {i : Instr} {t : State} (ht : exec i s = .next t) :
    t.cachesInRange := by
  obtain ⟨es, u, w, r, rfl, hu, -, hend⟩ := exec_endsIn ht
  obtain ⟨hout, hins, hpot⟩ := hu.finish_caches w r
  have hcaches := h.caches.writeCache (hend.inRange h.wellFormed h.potScale)
  rw [State.cachesInRange, State.writeCache_cfg] at hcaches
  rwa [State.cachesInRange, hout, hins, hpot, State.finish_cfg, hu.cfg]

/-- R93, R111: every command performed at a boundary ends at one. -/
theorem State.AtBoundary.exec (h : s.AtBoundary) (i : Instr) : ∃ t, exec i s = .next t ∧ t.AtBoundary := by
  have ht := exec_of_wf h.wellFormed i
  obtain ⟨hcfg, hboot, -, -, hseq⟩ := exec_keeps ht
  refine ⟨_, ht, ?_, ?_, hboot.trans h.running, hseq, h.exec_busIdle ht, h.exec_cachesInRange ht⟩
  · rw [hcfg, h.wellFormed]
  · rw [hcfg]; exact h.potScale

/-- What serving one request from `s` to `u` is: `exec` of the command its word decodes to, or the ILLEGAL answer. -/
def State.Serves (s : State) (req : Request) (waiting : List Request) (u : State) : Prop :=
  match decode req.word with
  | .command i => Machine.exec i { s with inbox := waiting, valueIn := req.valueIn } = .next u
  | .illegal _ => u = { s with inbox := waiting, answer := some ⟨.illegal, .none⟩ }

/-- R90, R92, R113: at a boundary a step serves the request presented first and ends at a boundary with the others
waiting. -/
theorem State.AtBoundary.step_serves (h : s.AtBoundary) {req : Request} {waiting : List Request}
    (hinbox : s.inbox = req :: waiting) :
    ∃ u, step s = .next u ∧ u.inbox = waiting ∧ u.AtBoundary ∧ s.Serves req waiting u := by
  rw [step, stepWith_idle h.wellFormed h.running h.idle]
  unfold State.Serves
  cases hword : decode req.word with
  | illegal why => exact ⟨_, acceptNext_illegal hinbox hword, rfl, h.withPorts waiting s.valueIn _, rfl⟩
  | command i =>
    obtain ⟨u, hu, hboundary⟩ := (h.withPorts waiting req.valueIn s.answer).exec i
    exact ⟨u, (acceptNext_command hinbox hword).trans hu, (exec_keeps hu).2.2.1, hboundary, hu⟩

/-- R113: from a boundary, `k` steps serve the first `k` of at least `k` waiting commands. -/
theorem State.AtBoundary.run_serves (h : s.AtBoundary) {k : Nat} (hk : k ≤ s.inbox.length) :
    ∃ t, Sys2Proof.core.run k s = .next t ∧ t.inbox = s.inbox.drop k ∧ t.AtBoundary := by
  induction k with
  | zero => exact ⟨s, rfl, rfl, h⟩
  | succ k ih =>
    obtain ⟨t, hrun, hinbox, ht⟩ := ih (Nat.le_of_succ_le hk)
    rw [List.drop_eq_getElem_cons hk] at hinbox
    obtain ⟨u, hstep, hu, hboundary, -⟩ := ht.step_serves hinbox
    exact ⟨u, (core_run_succ hrun).trans hstep, hu, hboundary⟩

end Boundary

/-- Settles O53: with nothing presented the step waits; otherwise it serves the request presented first
(`State.AtBoundary.step_serves`), an illegal one by the answer alone and a command by its run, which ends bus idle with
its caches in range (`State.AtBoundary.exec`). -/
theorem stepKeepsTheBoundary : Obligations.StepKeepsTheBoundary := by
  intro s h
  cases hinbox : s.inbox with
  | nil => exact ⟨s, idleBlockWaits s h.wellFormed h.running h.idle hinbox, h⟩
  | cons req waiting =>
    obtain ⟨u, hstep, -, hboundary, -⟩ := h.step_serves hinbox
    exact ⟨u, hstep, hboundary⟩

/-- Settles O54: `k` steps serve the first `k` commands (`State.AtBoundary.run_serves`), and one more the next
(`State.AtBoundary.step_serves`). -/
theorem waitingCommandsAreServedInOrder : Obligations.WaitingCommandsAreServedInOrder := by
  intro s k req h hreq
  obtain ⟨hk, rfl⟩ := List.getElem?_eq_some_iff.1 hreq
  obtain ⟨t, hrun, hinbox, ht⟩ := h.run_serves hk.le
  obtain ⟨u, hstep, hu, hboundary, hserves⟩ := ht.step_serves (hinbox.trans (List.drop_eq_getElem_cons hk))
  exact ⟨t, u, hrun, hinbox, ht, (core_run_succ hrun).trans hstep, hu, hboundary, hserves⟩

end Sys2Proof.Machine
end

section
/-! The refined view: a command issued event by event ends where the atomic step does (spec/10_state.md R26). -/

namespace Sys2Proof.Machine

/-- The sequencer's position takes no part in a run, which ends Idle. -/
theorem Proc.run_withSeq (p : Proc) (s : State) (q : Seq) : p.run { s with seq := q } = p.run s := by
  induction p generalizing s with
  | done w r => cases w <;> rfl
  | drive line v rest ih => exact ih (s.drive line v)
  | wait us rest ih => exact ih (s.wait us)
  | sample line rest ih => exact ih s.nextRaw (s.sampled line)
  | read line rest ih => exact ih s.nextBit (s.wasRead line)

/-- R90: what a command's primitives are chosen by. -/
theorem procOf_congr (i : Instr) {s t : State} (hcfg : s.cfg = t.cfg) (hvalue : s.valueIn = t.valueIn)
    (hout : s.outCache = t.outCache) (hins : s.insCache = t.insCache) (hpot : s.potCache = t.potCache) :
    procOf i s = procOf i t := by
  cases s
  cases t
  dsimp only at hcfg hvalue hout hins hpot
  subst hcfg hvalue hout hins hpot
  cases i <;> rfl

/-- What a command in progress leaves alone until its end: the waiting commands, the answer and the caches. -/
structure State.Holds (s t : State) : Prop where
  inbox : t.inbox = s.inbox
  answer : t.answer = s.answer
  outCache : t.outCache = s.outCache
  insCache : t.insCache = s.insCache
  potCache : t.potCache = s.potCache

theorem State.Holds.refl (s : State) : s.Holds s := ⟨rfl, rfl, rfl, rfl, rfl⟩

theorem State.Holds.trans {s t u : State} (h : s.Holds t) (h' : t.Holds u) : s.Holds u :=
  ⟨h'.inbox.trans h.inbox, h'.answer.trans h.answer, h'.outCache.trans h.outCache, h'.insCache.trans h.insCache,
    h'.potCache.trans h.potCache⟩

/-- R26: command `i` is in progress with `k` events issued and `p` left of it. -/
structure State.InProgress (s : State) (i : Instr) (k : Nat) (p : Proc) : Prop where
  wellFormed : configWf s.cfg = true
  running : s.boot = .running
  busy : s.seq = .busy i k
  rest : s.remaining i k = some p

theorem ticks_succ {n : Nat} {s t : State} (h : tick s = .next t) : ticks (n + 1) s = ticks n t := by
  simp only [ticks, h]

section Issue

variable {i : Instr} {k : Nat} {p p' : Proc} {s s' : State}

/-- R26: the sequencer counts the event issued. -/
theorem State.remaining_of_issue (h : s.remaining i k = some p) (hissue : p.issue s = some (p', s')) (q : Seq) :
    { s' with seq := q }.remaining i (k + 1) = some p' := by
  obtain ⟨e, htrace, hafter, hcfg, -, -, -, hvalue, -, hout, hins, hpot⟩ := Proc.issue_spec hissue
  have hproc : procOf i { s' with seq := q } = procOf i s := procOf_congr i hcfg hvalue hout hins hpot
  rw [State.remaining, Option.ite_none_right_eq_some] at h ⊢
  obtain ⟨hk, hp⟩ := h
  have hlength : s'.trace.length - (k + 1) = s.trace.length - k := by
    rw [htrace, List.length_append, List.length_singleton, Nat.add_sub_add_right]
  refine ⟨by rw [htrace, List.length_append]; exact Nat.succ_le_succ hk, ?_⟩
  rw [hproc, hlength, htrace, List.drop_append_of_le_length (Nat.sub_le _ _), Proc.after_append, hp, Option.bind_some,
    hafter]

theorem Proc.issue_holds (hissue : p.issue s = some (p', s')) (q : Seq) : s.Holds { s' with seq := q } := by
  obtain ⟨e, -, -, -, -, -, hinbox, -, hanswer, hout, hins, hpot⟩ := Proc.issue_spec hissue
  exact ⟨hinbox, hanswer, hout, hins, hpot⟩

theorem State.InProgress.tick_eq (h : s.InProgress i k p) : tick s = continueCommand i k s := by
  rw [tick, stepWith_running h.wellFormed h.running, h.busy]

/-- R26: the last event completes the command. -/
theorem State.InProgress.tick_last (h : s.InProgress i k p) {w : CacheWrite} {r : Result}
    (hissue : p.issue s = some (.done w r, s')) : tick s = .next (s'.finish w r) := by
  rw [h.tick_eq]
  simp only [continueCommand, h.rest, Option.bind_some, hissue]

/-- R26: an earlier one advances the count. -/
theorem State.InProgress.tick_next (h : s.InProgress i k p) (hissue : p.issue s = some (p', s'))
    (hp' : ∀ w r, p' ≠ .done w r) :
    tick s = .next { s' with seq := .busy i (k + 1) } ∧
      { s' with seq := .busy i (k + 1) }.InProgress i (k + 1) p' := by
  obtain ⟨e, -, -, hcfg, hboot, -⟩ := Proc.issue_spec hissue
  refine ⟨?_, hcfg ▸ h.wellFormed, hboot.trans h.running, rfl, State.remaining_of_issue h.rest hissue _⟩
  rw [h.tick_eq]
  rw [continueCommand, h.rest, Option.bind_some, hissue]
  cases p' with
  | done w r => exact absurd rfl (hp' w r)
  | drive | wait | sample | read => rfl

/-- R26: the refined steps of a command with `k` events issued and `p` left: one for each event, through Busy positions
that hold all but the trace, to the state its run ends in. -/
def State.RefinedRun (s : State) (i : Instr) (k : Nat) (p : Proc) : Prop :=
  ∃ n, (p.run s).trace.length = s.trace.length + n ∧ ticks n s = .next (p.run s) ∧
    ∀ j, j < n → ∃ u, ticks j s = .next u ∧ u.seq = .busy i (k + j) ∧
      u.trace = (p.run s).trace.take (s.trace.length + j) ∧ s.Holds u

/-- A command in progress has an event left, and after it either none or a command in progress. -/
theorem State.InProgress.refinedRun_of_issue (h : s.InProgress i k p) (hissue : p.issue s = some (p', s'))
    (hrest : (∀ w r, p' ≠ .done w r) → ∀ (s'' : State) (k' : Nat), s''.InProgress i k' p' → s''.RefinedRun i k' p') :
    s.RefinedRun i k p := by
  obtain ⟨e, htrace, -⟩ := Proc.issue_spec hissue
  have hrun := Proc.run_of_issue hissue
  have hlength : s'.trace.length = s.trace.length + 1 := by rw [htrace, List.length_append, List.length_singleton]
  have hfirst : s.trace = (p.run s).trace.take (s.trace.length + 0) := by
    obtain ⟨es, hes⟩ := p.run_trace s
    rw [hes, Nat.add_zero, List.take_left]
  by_cases hdone : ∃ w r, p' = .done w r
  · obtain ⟨w, r, rfl⟩ := hdone
    refine ⟨1, by rw [hrun, Proc.run_done, State.finish_trace, hlength], ?_, fun j hj => ?_⟩
    · rw [ticks_succ (h.tick_last hissue), hrun, Proc.run_done, ticks]
    · obtain rfl := Nat.lt_one_iff.1 hj
      exact ⟨s, rfl, h.busy, hfirst, .refl s⟩
  · obtain ⟨htick, hprogress⟩ := h.tick_next hissue fun w r hp' => hdone ⟨w, r, hp'⟩
    obtain ⟨n, hn, hticks, hmid⟩ := hrest (fun w r hp' => hdone ⟨w, r, hp'⟩) _ _ hprogress
    rw [Proc.run_withSeq, ← hrun] at hn hticks
    refine ⟨n + 1, ?_, (ticks_succ htick).trans hticks, fun j hj => ?_⟩
    · rw [hn, hlength]; omega
    · cases j with
      | zero => exact ⟨s, rfl, h.busy, hfirst, .refl s⟩
      | succ j =>
        obtain ⟨u, hu, hseq, hutrace, hholds⟩ := hmid j (Nat.lt_of_succ_lt_succ hj)
        refine ⟨u, (ticks_succ htick).trans hu, ?_, ?_, (Proc.issue_holds hissue _).trans hholds⟩
        · rw [hseq, Nat.add_right_comm, Nat.add_assoc]
        · rw [hutrace, Proc.run_withSeq, ← hrun, hlength, Nat.add_right_comm, Nat.add_assoc]

/-- R26: every command in progress reaches the state its run ends in. -/
theorem State.InProgress.refinedRun (h : s.InProgress i k p) (hp : ∀ w r, p ≠ .done w r) : s.RefinedRun i k p := by
  induction p generalizing s k with
  | done w r => exact absurd rfl (hp w r)
  | drive line v rest ih => exact h.refinedRun_of_issue rfl fun hrest _ _ h' => ih h' hrest
  | wait us rest ih => exact h.refinedRun_of_issue rfl fun hrest _ _ h' => ih h' hrest
  | sample line rest ih => exact h.refinedRun_of_issue rfl fun hrest _ _ h' => ih _ h' hrest
  | read line rest ih => exact h.refinedRun_of_issue rfl fun hrest _ _ h' => ih _ h' hrest

end Issue

/-- R26: a command that has an event goes to Busy(cmd, 0). -/
theorem beginCommand_of_not_done {i : Instr} {s : State} (h : ∀ w r, procOf i s ≠ .done w r) :
    beginCommand i s = .next { s with seq := .busy i 0 } := by
  unfold beginCommand
  split
  next w r hproc => exact absurd hproc (h w r)
  next => rfl

/-- R91: a command that has none completes at once. -/
theorem beginCommand_of_done {i : Instr} {s : State} {w : CacheWrite} {r : Result} (h : procOf i s = .done w r) :
    beginCommand i s = exec i s := by
  rw [exec_eq_perform, beginCommand, h]

/-- R26: an accepted command has all its primitives left. -/
theorem State.inProgress_zero {i : Instr} {s : State} (hw : configWf s.cfg = true) (hboot : s.boot = .running) :
    { s with seq := .busy i 0 }.InProgress i 0 (procOf i s) := by
  refine ⟨hw, hboot, rfl, ?_⟩
  have hproc : procOf i { s with seq := .busy i 0 } = procOf i s := procOf_congr i rfl rfl rfl rfl rfl
  rw [State.remaining, if_pos (Nat.zero_le _), Nat.sub_zero, List.drop_length, hproc]
  cases procOf i s <;> rfl

/-- Settles O55: the first refined step accepts the command; one without events completes in it, and any other is then
in progress with all its primitives left, each event a step (`State.InProgress.refinedRun`). -/
theorem refinedViewAgreesWithAtomicStep : Obligations.RefinedViewAgreesWithAtomicStep := by
  intro s t req waiting i hw hboot hidle hinbox hword hstep
  rw [stepRunsTheDecodedCommand s req waiting i hw hboot hidle hinbox hword] at hstep
  have htick : tick s = beginCommand i { s with inbox := waiting, valueIn := req.valueIn } := by
    rw [tick, stepWith_idle hw hboot hidle, acceptNext_command hinbox hword]
  generalize hs₁ : { s with inbox := waiting, valueIn := req.valueIn } = s₁ at hstep htick
  have hw₁ : configWf s₁.cfg = true := by rw [← hs₁]; exact hw
  have hboot₁ : s₁.boot = .running := by rw [← hs₁]; exact hboot
  have htrace₁ : s₁.trace = s.trace := by rw [← hs₁]
  obtain rfl := (exec_eq_next.1 hstep).2
  by_cases hdone : ∃ w r, procOf i s₁ = .done w r
  · obtain ⟨w, r, hproc⟩ := hdone
    refine ⟨0, ?_, ticks_succ (htick.trans ((beginCommand_of_done hproc).trans hstep)), nofun⟩
    rw [hproc, Proc.run_done, State.finish_trace, htrace₁, Nat.add_zero]
  · have hproc : ∀ w r, procOf i s₁ ≠ .done w r := fun w r h => hdone ⟨w, r, h⟩
    rw [beginCommand_of_not_done hproc] at htick
    obtain ⟨n, hn, hticks, hmid⟩ := (State.inProgress_zero hw₁ hboot₁).refinedRun hproc
    rw [Proc.run_withSeq] at hn hticks
    refine ⟨n, htrace₁ ▸ hn, (ticks_succ htick).trans hticks, fun k hk => ?_⟩
    obtain ⟨u, hu, hseq, hutrace, hholds⟩ := hmid k hk
    rw [Proc.run_withSeq] at hutrace
    refine ⟨u, (ticks_succ htick).trans hu, by rw [hseq, Nat.zero_add], htrace₁ ▸ hutrace, ?_⟩
    subst hs₁
    exact ⟨hholds.inbox, hholds.answer, hholds.outCache, hholds.insCache, hholds.potCache⟩

end Sys2Proof.Machine
end

section
/-! The frame as a number (spec/30_encoding.md R45 to R49). -/

namespace Sys2Proof.Machine

/-- R47: bits read on from a number `n` shift it up and fill the places below. -/
theorem foldl_bits (n : Nat) (bits : List Bit) :
    bits.foldl (fun n b => 2 * n + b.toNat) n = 2 ^ bits.length * n + bitsValue bits := by
  induction bits generalizing n with
  | nil => simp [bitsValue]
  | cons b bits ih =>
    rw [bitsValue, List.foldl_cons, List.foldl_cons, ih, ih (2 * 0 + b.toNat), List.length_cons, Nat.pow_succ]
    ring

theorem bitsValue_cons (b : Bit) (bits : List Bit) :
    bitsValue (b :: bits) = 2 ^ bits.length * b.toNat + bitsValue bits := by
  rw [bitsValue, List.foldl_cons, foldl_bits, Nat.mul_zero, Nat.zero_add]

theorem bitsValue_lt (bits : List Bit) : bitsValue bits < 2 ^ bits.length := by
  induction bits with
  | nil => exact Nat.one_pos
  | cons b bits ih =>
    have hb := Nat.mul_le_mul_left (2 ^ bits.length) b.toNat_le
    rw [bitsValue_cons, List.length_cons, Nat.pow_succ]
    omega

theorem bitsValue_append (xs ys : List Bit) :
    bitsValue (xs ++ ys) = bitsValue xs <<< ys.length ||| bitsValue ys := by
  rw [← Nat.shiftLeft_add_eq_or_of_lt (bitsValue_lt ys), Nat.shiftLeft_eq, Nat.mul_comm, ← foldl_bits, bitsValue,
    List.foldl_append, ← bitsValue]

/-- The `m` bits of `c` from bit `k` up, the highest first. -/
def bitsFrom (c : Code12) (k m : Nat) : List Bit := (List.range m).reverse.map fun j => c.getLsbD (k + j)

theorem length_bitsFrom (c : Code12) (k m : Nat) : (bitsFrom c k m).length = m := by simp [bitsFrom]

theorem bitsValue_bitsFrom (c : Code12) (k m : Nat) : bitsValue (bitsFrom c k m) = (c.extractLsb' k m).toNat := by
  induction m with
  | zero => simp [bitsFrom, bitsValue]
  | succ m ih =>
    have hcons : bitsFrom c k (m + 1) = c.getLsbD (k + m) :: bitsFrom c k m := by
      simp [bitsFrom, List.range_succ]
    have hbit : (c.getLsbD (k + m)).toNat = (c.toNat >>> k) / 2 ^ m % 2 := by
      rw [← Nat.toNat_testBit, Nat.testBit_shiftRight]
      rfl
    rw [hcons, bitsValue_cons, ih, length_bitsFrom, hbit, BitVec.extractLsb'_toNat, BitVec.extractLsb'_toNat,
      Nat.mod_pow_succ, Nat.add_comm]

/-- R45, R46: the frame is its constant slots with the code's two fields between them. -/
theorem frame_eq (c : Code12) : frame c =
    (frameHeader ++ [high, low, low, low, low]) ++ bitsFrom c 8 4 ++ [high] ++ bitsFrom c 0 8 ++ [high] := rfl

theorem bitsValue_frame (c : Code12) :
    bitsValue (frame c) = 0x6040201 ||| ((c.extractLsb' 8 4).toNat <<< 10) ||| ((c.extractLsb' 0 8).toNat <<< 1) := by
  have hheader : bitsValue (frameHeader ++ [high, low, low, low, low]) = 0x1810 := rfl
  have hone : bitsValue [high] = 1 := rfl
  have hconst : 0x6040201 = 0x1810 <<< 14 ||| (1 <<< 9 ||| 1) := rfl
  rw [frame_eq, hconst]
  simp only [bitsValue_append, bitsValue_bitsFrom, length_bitsFrom, hheader, hone, List.length_singleton,
    Nat.shiftLeft_or_distrib, ← Nat.shiftLeft_add]
  ac_rfl

/-- Settles O7: the value is put together from the frame's parts (`bitsValue_append`); the code's two fields stand for
themselves (`bitsValue_bitsFrom`). -/
theorem frameLayout : Obligations.FrameLayout := fun c => ⟨rfl, bitsValue_frame c, rfl, rfl, rfl⟩

end Sys2Proof.Machine
end

section
/-! The events of one Transmit, counted (spec/40_protocol_encoder.md R68). -/

namespace Sys2Proof.Machine

section Counts

variable (c : Config)

/-- R68: three Set events to a slot. -/
theorem countP_isSet_slots (bits : List Bit) : (bits.flatMap (slotEvents c)).countP Event.isSet = 3 * bits.length := by
  have hslot (b : Bit) : (slotEvents c b).countP Event.isSet = 3 := rfl
  simp [List.countP_flatMap, Function.comp_def, hslot, Nat.mul_comm]

theorem count_delay_slot (b : Bit) : (slotEvents c b).count (.delay c.consts.holdUs) = 2 := by
  simp [slotEvents]

/-- R68: and two delays. -/
theorem count_delay_slots (bits : List Bit) :
    (bits.flatMap (slotEvents c)).count (.delay c.consts.holdUs) = 2 * bits.length := by
  simp [List.count_flatMap, Function.comp_def, count_delay_slot, Nat.mul_comm]

/-- R68, R114: the microseconds the slots request. -/
theorem requestedUs_slots (bits : List Bit) :
    ((bits.flatMap (slotEvents c)).map Event.requestedUs).sum = 2 * bits.length * c.consts.holdUs := by
  induction bits with
  | nil => simp
  | cons b bits ih =>
    rw [List.flatMap_cons, List.map_append, List.sum_append, ih, List.length_cons]
    simp [slotEvents, Event.requestedUs]
    ring

theorem requestedUs_transmitEvents (code : Code12) :
    ((transmitEvents c code).map Event.requestedUs).sum = 57 * c.consts.holdUs := by
  have hslots : (frame code).length = 27 := rfl
  rw [transmitEvents, List.map_append, List.map_append, List.sum_append, List.sum_append, requestedUs_slots, hslots]
  simp [startEvents, stopEvents, Event.requestedUs]
  ring

end Counts

/-- Settles O12: 2 + 27 · 3 + 2 Set events and 1 + 27 · 2 + 2 delays, of HOLD_US each. -/
theorem transmitEventCounts : Obligations.TransmitEventCounts := by
  intro c code
  have hslots : (frame code).length = 27 := rfl
  refine ⟨length_transmitEvents c code, ?_, ?_, requestedUs_transmitEvents c code, fun h => ?_⟩
  · rw [transmitEvents, List.countP_append, List.countP_append, countP_isSet_slots, hslots]
    rfl
  · rw [transmitEvents, List.count_append, List.count_append, count_delay_slots, hslots]
    simp [startEvents, stopEvents]
  · rw [requestedUs_transmitEvents, h]

end Sys2Proof.Machine
end

section
/-! The waveform of one Transmit (spec/40_protocol_encoder.md R67). -/

namespace Sys2Proof.Machine

/-! R67's observations, event by event: what the event adds is read off the levels before and after it. -/

section Observations

variable (p : PinMap) (l : Levels) (e : Event) (es : List Event)

@[simp] theorem dataAtRises_waveform_cons : dataAtRises (waveform p l (e :: es)) =
    (if l.clk = low ∧ (l.after p e).clk = high then [(l.after p e).dat] else []) ++
      dataAtRises (waveform p (l.after p e) es) := by
  cases es <;> rfl

@[simp] theorem clockFalls_waveform_cons : clockFalls (waveform p l (e :: es)) =
    (if l.clk = high ∧ (l.after p e).clk = low then 1 else 0) + clockFalls (waveform p (l.after p e) es) := by
  cases es <;> rfl

@[simp] theorem dataEdgesClockHigh_waveform_cons : dataEdgesClockHigh (waveform p l (e :: es)) =
    (if l.clk = high ∧ (l.after p e).clk = high ∧ l.dat ≠ (l.after p e).dat then [(l.after p e).dat] else []) ++
      dataEdgesClockHigh (waveform p (l.after p e) es) := by
  cases es <;> rfl

@[simp] theorem getLast?_waveform_cons :
    (waveform p l (e :: es)).getLast? = (waveform p (l.after p e) es).getLast? := by
  cases es <;> rfl

@[simp] theorem waveform_nil : waveform p l [] = [l] := rfl

end Observations

/-- What R67 observes of a waveform: DATA at CLOCK's rising edges, CLOCK's falling edges, DATA's edges while CLOCK is
high, and the levels at the end. -/
@[ext] structure Observed where
  rises : List Bit
  falls : Nat
  edges : List Bit
  final : Option Levels

def observe (p : PinMap) (l : Levels) (es : List Event) : Observed where
  rises := dataAtRises (waveform p l es)
  falls := clockFalls (waveform p l es)
  edges := dataEdgesClockHigh (waveform p l es)
  final := (waveform p l es).getLast?

/-- R62, R67 item 2: what slots add in front: a rising edge for each bit, a falling edge for each, no edge of DATA while
CLOCK is high. -/
def Observed.afterSlots (bits : List Bit) (o : Observed) : Observed :=
  { o with rises := bits ++ o.rises, falls := bits.length + o.falls }

section Slots

variable {c : Config} (hc : c.pins.clock ≠ c.pins.data)

include hc

theorem observe_slot (d b : Bit) (es : List Event) :
    observe c.pins ⟨low, d⟩ (slotEvents c b ++ es) = (observe c.pins ⟨low, b⟩ es).afterSlots [b] := by
  simp [observe, Observed.afterSlots, slotEvents, Levels.after, hc, hc.symm]

theorem observe_slots (bits : List Bit) (d : Bit) (es : List Event) :
    observe c.pins ⟨low, d⟩ (bits.flatMap (slotEvents c) ++ es) =
      (observe c.pins ⟨low, bits.getLast?.getD d⟩ es).afterSlots bits := by
  induction bits generalizing d with
  | nil => simp [Observed.afterSlots]
  | cons b bits ih =>
    rw [List.flatMap_cons, List.append_assoc, observe_slot hc, ih, List.getLast?_cons, Option.getD_some]
    ext1 <;> simp [Observed.afterSlots]
    omega

/-- R61, R67 item 1: the start condition is DATA's one edge while CLOCK is high, and CLOCK falls. -/
theorem observe_start (es : List Event) :
    observe c.pins ⟨high, high⟩ (startEvents c ++ es) =
      { observe c.pins ⟨low, low⟩ es with
        falls := 1 + (observe c.pins ⟨low, low⟩ es).falls
        edges := low :: (observe c.pins ⟨low, low⟩ es).edges } := by
  simp [observe, startEvents, Levels.after, hc, hc.symm]

/-- R63, R67 items 4 and 5: with DATA at 1 already the stop condition moves it no more, and both lines end at 1. -/
theorem observe_stop : observe c.pins ⟨low, high⟩ (stopEvents c) = ⟨[high], 0, [], some ⟨high, high⟩⟩ := by
  simp [observe, stopEvents, Levels.after, dataAtRises, clockFalls, dataEdgesClockHigh, hc, hc.symm]

/-- R67: one Transmit from bus idle. The last slot of a frame is 1, so the stop condition finds DATA at 1. -/
theorem observe_transmitEvents (code : Code12) :
    observe c.pins ⟨high, high⟩ (transmitEvents c code) = ⟨frame code ++ [high], 28, [low], some ⟨high, high⟩⟩ := by
  have hlast : (frame code).getLast?.getD low = high := rfl
  rw [transmitEvents, List.append_assoc, observe_start hc, observe_slots hc, hlast, observe_stop hc]
  rfl

/-- R67 item 2: within the slots DATA is driven only while CLOCK is low. -/
theorem dataDrivenOnlyWhileLow_slots (bits : List Bit) (d : Bit) :
    dataDrivenOnlyWhileLow c.pins ⟨low, d⟩ (bits.flatMap (slotEvents c)) := by
  induction bits generalizing d with
  | nil => trivial
  | cons b bits ih =>
    have hslot := ih b
    simpa [slotEvents, dataDrivenOnlyWhileLow, Levels.after, hc, hc.symm] using hslot

end Slots

/-- Settles O13: the four observations of the waveform are `observe_transmitEvents`'s fields. -/
theorem transmitWaveform : Obligations.TransmitWaveform := by
  intro c code hw
  have hc := configWf.clock_ne_data hw
  have hobserved := observe_transmitEvents hc code
  rw [observe, Observed.mk.injEq] at hobserved
  obtain ⟨hrises, hfalls, hedges, hfinal⟩ := hobserved
  exact ⟨hedges, hrises, hfalls, dataDrivenOnlyWhileLow_slots hc _ _, hfinal⟩

end Sys2Proof.Machine
end

section
/-! The output transform over all values: its range, its order, its formula and its inverse (spec/41_output_mapper.md
R69, R70, R73). -/

namespace Sys2Proof.Machine

section Transform

variable {c : Config}

/-- R71: clamping a second time changes nothing. -/
theorem clampToRange_clampToRange (hw : configWf c = true) (v : PhysNum) :
    clampToRange c (clampToRange c v) = clampToRange c v := by
  obtain ⟨hl, hu⟩ := inRange_clampToRange hw v
  exact clampToRange_of_mem hl hu

/-- R69, R71: the code sent for a value is that of the clamped value. -/
theorem outputCode_clampToRange (hw : configWf c = true) (v : PhysNum) :
    outputCode c (clampToRange c v) = outputCode c v := by
  rw [outputCode, outputCode, outputLevel, outputLevel, clampToRange_clampToRange hw]

/-- R69: the code of any value is the floor of the clamped value's affine image. -/
theorem outputCode_toNat (hw : configWf c = true) (v : PhysNum) :
    ((outputCode c v).toNat : Int) = ⌊affineCode c (clampToRange c v)⌋ := by
  obtain ⟨hl, hu⟩ := inRange_clampToRange hw v
  rw [← outputCode_clampToRange hw, outputCode_toNat_of_mem hw hl hu]

theorem affineCode_strictMono (hw : configWf c = true) {u v : PhysNum} (h : u < v) :
    affineCode c u < affineCode c v := by
  have hstep := codeStep_pos hw
  rw [affineCode_eq_codeMax_sub hw, affineCode_eq_codeMax_sub hw]
  gcongr

/-- R70 item 3: below maxVal the affine image is below CODE_MAX, and so is its floor. -/
theorem outputCode_toNat_eq_codeMax_iff (hw : configWf c = true) (v : PhysNum) :
    (outputCode c v).toNat = c.consts.codeMax ↔ c.maxVal ≤ v := by
  constructor
  · intro h
    by_contra hlt
    have hclamp : clampToRange c v < c.maxVal := min_lt_of_left_lt (max_lt (not_le.1 hlt) (configWf.range hw))
    have hcode := affineCode_strictMono hw hclamp
    rw [affineCode_maxVal hw, ← Int.cast_natCast, ← Int.floor_lt, ← outputCode_toNat hw, h] at hcode
    exact lt_irrefl _ hcode
  · intro h
    rw [← outputCode_clampToRange hw, clampToRange_of_maxVal_le hw h, outputCode_maxVal_toNat hw]

/-- R69, "the two readings agree": the code clamp alone does what the value clamp does. -/
theorem codeOfAffine_clampToRange (hw : configWf c = true) (v : PhysNum) :
    codeOfAffine c (affineCode c v) = codeOfAffine c (affineCode c (clampToRange c v)) := by
  have hcodes : (c.consts.codeMin : Int) ≤ c.consts.codeMax := by
    have := (configWf.relations hw).1
    omega
  rcases le_total v c.minVal with hlo | hlo
  · have hfloor := Int.floor_mono (affineCode_mono hw hlo)
    rw [affineCode_minVal, Int.floor_natCast] at hfloor
    rw [clampToRange_of_le_minVal hw hlo, affineCode_minVal, codeOfAffine, codeOfAffine, clamp_of_le hcodes hfloor,
      Int.floor_natCast, clamp_of_le hcodes le_rfl]
  · rcases le_total c.maxVal v with hhi | hhi
    · have hfloor := Int.floor_mono (affineCode_mono hw hhi)
      rw [affineCode_maxVal hw, Int.floor_natCast] at hfloor
      rw [clampToRange_of_maxVal_le hw hhi, affineCode_maxVal hw, codeOfAffine, codeOfAffine, clamp_of_ge hcodes hfloor,
        Int.floor_natCast, clamp_of_ge hcodes le_rfl]
    · rw [clampToRange_of_mem hlo hhi]

/-- R70 item 5: the affine map in terms of a value's place in the Range. -/
theorem affineCode_eq_place (c : Config) (u : PhysNum) :
    affineCode c u = c.consts.codeMin + c.consts.codeSpan * ((u - c.minVal) / (c.maxVal - c.minVal)) := by
  rw [affineCode, mul_div_assoc]

/-- R73: decoding a code falls below a value by the steps between the code and the value's affine image. -/
theorem decodeCode_eq_sub (hw : configWf c = true) (v : PhysNum) (code : Int) :
    decodeCode c code = v - (affineCode c v - code) * codeStep c := by
  obtain ⟨-, hspan, -⟩ := configWf.relations hw
  have hspan' : (c.consts.codeSpan : PhysNum) ≠ 0 := Nat.cast_ne_zero.2 hspan.ne'
  have hrange : c.maxVal - c.minVal ≠ 0 := (sub_pos.2 (configWf.range hw)).ne'
  rw [decodeCode, codeStep, affineCode]
  field_simp
  ring

end Transform

/-- Settles O14: the clamped value's affine image lies between those of the two ends (`floor_affineCode_mem`), and at
CODE_MAX only at the upper one (`outputCode_toNat_eq_codeMax_iff`). -/
theorem outputCodeRangeAndEnds : Obligations.OutputCodeRangeAndEnds := by
  intro c v hw
  obtain ⟨hl, hu⟩ := inRange_clampToRange hw v
  obtain ⟨hlo, hhi⟩ := floor_affineCode_mem hw hl hu
  rw [← outputCode_toNat hw] at hlo hhi
  refine ⟨Int.ofNat_le.1 hlo, Int.ofNat_le.1 hhi, fun h => ?_, outputCode_toNat_eq_codeMax_iff hw v⟩
  rw [← outputCode_clampToRange hw, clampToRange_of_le_minVal hw h, outputCode_minVal_toNat hw]

/-- Settles O15: the clamp, the affine map and the floor each keep the order. -/
theorem outputCodeMonotone : Obligations.OutputCodeMonotone := by
  intro c v₁ v₂ hw h
  rw [← Int.ofNat_le, outputCode_toNat hw, outputCode_toNat hw]
  exact Int.floor_mono (affineCode_mono hw (clamp_mono _ _ h))

/-- Settles O16: the floor of the affine image is CODE_MIN and the floor of the value's place in the Range times
CODE_SPAN; the two readings agree by `codeOfAffine_clampToRange`. -/
theorem outputCodeFormulaAndReadings : Obligations.OutputCodeFormulaAndReadings := by
  intro c v hw
  constructor
  · rw [outputCode_toNat hw, affineCode_eq_place, clampToRange, clamp, Int.floor_natCast_add]
  · rw [codeOfAffine_clampToRange hw, outputCode, outputLevel]

/-- Settles O17: the round trip loses the fractional part of the affine image, in code steps; that part is at least 0,
below 1, and 0 exactly at an integer. -/
theorem roundTripWithinOneStep : Obligations.RoundTripWithinOneStep := by
  intro c v hw hl hu
  have hstep := codeStep_pos hw
  have hfract : decodeCode c (outputCode c v).toNat = v - Int.fract (affineCode c v) * codeStep c := by
    rw [decodeCode_eq_sub hw v, outputCode_toNat_of_mem hw hl hu, Int.fract]
  have hexact : decodeCode c (outputCode c v).toNat = v ↔ Int.fract (affineCode c v) = 0 := by
    rw [hfract, sub_eq_self, mul_eq_zero, or_iff_left hstep.ne']
  have hlo := mul_nonneg (Int.fract_nonneg (affineCode c v)) hstep.le
  have hhi := mul_lt_of_lt_one_left hstep (Int.fract_lt_one (affineCode c v))
  refine ⟨by rw [hfract]; linarith, by rw [hfract]; linarith, fun hmax => ?_, ?_⟩
  · rw [hexact, hmax, affineCode_maxVal hw, Int.fract_natCast]
  · rw [hexact, affineCode_eq_place, Int.fract_natCast_add, Int.fract_eq_zero_iff]
    exact ⟨fun ⟨n, hn⟩ => ⟨n, hn.symm⟩, fun ⟨n, hn⟩ => ⟨n, hn.symm⟩⟩

end Sys2Proof.Machine
end

section
/-! What the input conditioner's commands share: the order of their mappings, a disconnected channel and aliased indices
(spec/42_input_conditioner.md R74, R76 to R78, R89). -/

namespace Sys2Proof.Machine

/-- R76, R77: a larger sample lies further along the span. -/
theorem spanFraction_mono (offset : Int) (span : Nat) {r₁ r₂ : Raw10} (h : r₁ ≤ r₂) :
    spanFraction offset span r₁ ≤ spanFraction offset span r₂ := by
  have hr : (r₁.val : PhysNum) ≤ r₂.val := Nat.cast_le.2 h
  exact div_le_div_of_nonneg_right (sub_le_sub_right hr _) (Nat.cast_nonneg span)

/-- Settles O33: the two clamped mappings are a sample's place along a span (`spanFraction_mono`), clamped; the third is
a quotient. -/
theorem inputMappingsMonotone : Obligations.InputMappingsMonotone := by
  intro c r₁ r₂ hw h
  refine ⟨?_, ?_, ?_⟩
  · have hplace := mul_le_mul_of_nonneg_left (spanFraction_mono c.consts.stdOffset c.consts.stdSpan h)
      (sub_nonneg.2 (configWf.range hw).le)
    rw [physStd_eq_clamp, physStd_eq_clamp]
    exact clamp_mono _ _ (add_le_add_right hplace _)
  · rw [unitMaster_eq_clamp, unitMaster_eq_clamp]
    exact clamp_mono _ _ (spanFraction_mono _ _ h)
  · exact div_le_div_of_nonneg_right (Nat.cast_le.2 h) (Nat.cast_nonneg _)

/-- Settles O34: the three commands' next states at or above the threshold, as O23, O24 and O25 give them. -/
theorem disconnectedChannelAgreement : Obligations.DisconnectedChannelAgreement := by
  intro ch s hw h
  obtain ⟨-, hconnected⟩ := isConnectedTestsOneSample ch s hw
  obtain ⟨-, hanalog, -⟩ := readAnalogMapsAndCaches ch s _ hw rfl
  obtain ⟨-, hdigital, -⟩ := readDigitalReadsOnlyWhenConnected ch s _ hw rfl
  rw [decide_eq_false h.not_gt] at hconnected
  exact ⟨⟨_, hconnected, rfl⟩, ⟨_, hanalog h, rfl⟩, ⟨_, hdigital h, rfl⟩⟩

/-- R74: a command sees its channel index only clamped. -/
theorem exec_channel_congr {s : State} {n m : Int} (h : clampCh s.cfg.consts n = clampCh s.cfg.consts m) :
    exec (.isConnected n) s = exec (.isConnected m) s ∧ exec (.readAnalog n) s = exec (.readAnalog m) s ∧
      exec (.readDigital n) s = exec (.readDigital m) s := by
  simp only [exec_eq_perform, procOf, isConnectedProc, readAnalogProc, readDigitalProc, h, and_self]

theorem exec_readDip_congr {s : State} {n m : Int} (h : clampDip s.cfg.consts n = clampDip s.cfg.consts m) :
    exec (.readDip n) s = exec (.readDip m) s := by
  simp only [exec_eq_perform, procOf, readDipProc, h]

/-- R74: below the first entry. -/
theorem clampIndex_of_nonpos {n : Int} (h : n ≤ 0) (count : Nat) : clampIndex n count = clampIndex 0 count := by
  rw [clampIndex, clampIndex, clamp, clamp, max_eq_right h, max_self]

/-- R74: above the last. -/
theorem clampIndex_of_last_le {n : Int} {count : Nat} (h : (count : Int) - 1 ≤ n) :
    clampIndex n count = clampIndex ((count : Int) - 1) count := by
  rw [clampIndex, clampIndex, clamp, clamp, min_eq_right (h.trans (le_max_left n 0)), min_eq_right (le_max_left _ 0)]

/-- Settles O35: an index outside its domain is clamped to the same entry as the nearest one inside it. -/
theorem indexAliasing : Obligations.IndexAliasing := by
  rintro n _ _ s rfl rfl
  refine ⟨fun h => ?_, fun h => ?_, fun h => ?_⟩
  · obtain ⟨hconnected, hanalog, hdigital⟩ :=
      exec_channel_congr (s := s) (congrArg (Fin.ofNat 6) (clampIndex_of_nonpos h _))
    have hdip := exec_readDip_congr (s := s) (congrArg (Fin.ofNat 2) (clampIndex_of_nonpos h _))
    exact ⟨hconnected, hanalog, hdigital, hdip⟩
  · exact exec_channel_congr (congrArg (Fin.ofNat 6) (clampIndex_of_last_le h))
  · exact exec_readDip_congr (congrArg (Fin.ofNat 2) (clampIndex_of_last_le h))

end Sys2Proof.Machine
end
